-- ==== Sys2Proof/Word.lean ====
section
/-! DEFINITION. Word.lean: the widths the manual uses. -/

namespace Sys2Proof

/-- One byte, on the line or at the host port (R196). -/
abbrev Byte := BitVec 8

/-- A 16-bit field (R196). -/
abbrev Half := BitVec 16

/-- A sequence number: 16-bit and modular (R30). -/
abbrev Seq := BitVec 16

/-- A station number 0..15 (R73). -/
abbrev StationNo := Fin 16

/-- A slot's tag 0..7 (R138). -/
abbrev Tag := Fin 8

/-- A zone line ZL0..ZL7 (R162). -/
abbrev LineNo := Fin 8

end Sys2Proof
end

