-- ==== Sys2Proof/Syntax.lean ====
section
/-! DEFINITION. Syntax.lean: the commands of the block, one constructor per row of spec/opcode_table.json, with their
operands. A request's operands are its body's fields AS CARRIED (R201), so that a field out of range can be written. -/

namespace Sys2Proof

/-- The levels of the strap pins as they are read (R73, R74). `none`: the pin lies outside its bands. A rate pin reads
high (`true`) or low. -/
structure Straps where
  stnA  : Option (Fin 4)
  stnB  : Option (Fin 4)
  rate1 : Option Bool
  rate0 : Option Bool
  deriving DecidableEq, Repr

/-- One zone line's three bytes in a SETUP body (R201). -/
structure LineBody where
  mode     : Byte
  zone     : Byte
  polarity : Byte
  deriving DecidableEq, Repr

/-- The SETUP body (R201), as carried. -/
structure SetupBody where
  zoneCount       : Byte
  poolCapacity    : Half
  beatInterval    : Half
  absenceLimit    : Byte
  hostCheckPeriod : Half
  triggerLevel    : Byte
  idleTimeout     : Byte
  lines           : Vector LineBody 8
  deriving DecidableEq, Repr

/-- The commands. The order and the names are those of spec/opcode_table.json. -/
inductive Instr where
  /-- POWER_ON (R73): power-on ends; the straps' levels and the level of SSN at that moment. -/
  | powerOn (straps : Straps) (ssnHigh : Bool)
  /-- RESET_PIN (R195): RESET_N is released. -/
  | resetPin (straps : Straps) (ssnHigh : Bool)
  /-- TRANSACTION_TAKE (R176): SSN rises after these whole bytes; `cut` when it rose inside a further byte (R173). -/
  | transactionTake (bytes : List Byte) (cut : Bool)
  /-- STATUS_READ (R173): SSN rises after exactly one whole byte. -/
  | statusRead (first : Byte) (cut : Bool)
  /-- NOP (R176): a well-formed NOP transaction ends. -/
  | nop
  /-- FETCH (R177): a well-formed FETCH transaction ends; the filler bytes of its window. -/
  | fetch (window : List Byte)
  | setup (body : SetupBody)
  | start
  | restart
  | ask (flags lo hi : Byte) (units hold : Half)
  | free (tag : Byte)
  | cancel (tag : Byte)
  | surrender
  | depart
  | rejoin
  | status
  | view (code index auto : Byte)
  | read (count : Byte)
  | take (count : Byte)
  | tally
  /-- UNKNOWN (R179): a taken request whose code names no request. -/
  | unknown (code : Byte)
  /-- LINE_SETTLED (R52): the levels read in SETTLING since the last bit read; left out, one whole idle gap. -/
  | lineSettled (levels : List Bool := List.replicate 11 true)
  /-- LINE_FRAME_START (R52): the line turned dominant; the levels read since that start bit (`true` is recessive). -/
  | lineFrameStart (levels : List Bool := [])
  /-- ATTEMPT_START (R62): the recessive bit times that passed since QUIET's count last stood (R52, R60). -/
  | attemptStart (bits : Nat)
  /-- ATTEMPT_LOST (R63): the levels read back since the last bit read, up to the one that differs. -/
  | attemptLost (levels : List Bool := [])
  /-- ATTEMPT_FAULT (R63, R64): the levels read back since the last bit read, up to the one that differs. -/
  | attemptFault (levels : List Bool)
  /-- FRAME_BROKEN (R59): the levels read since the last bit read, up to the sixth dominant one. -/
  | frameBroken (levels : List Bool := [])
  /-- FRAME_END (R58): the levels read since the last bit read, up to the sixth recessive one (R197). -/
  | frameEnd (levels : List Bool)
  /-- FRAME_OUTCOME (R42): the levels that the OTHER stations leave on the line in those of bit times 7 to 9 after the
  frame's end (R197) that are still to be read. -/
  | frameOutcome (others : List Bool)
  /-- OWN_FRAME_OUTCOME (R65): the levels read back since the last bit read, to the end of the agreement slot. -/
  | ownFrameOutcome (levels : List Bool)
  /-- SNAP_SENT (R65, R123): the levels read back since the last bit read, to the end of the agreement slot. -/
  | snapSent (levels : List Bool)
  | listenTimerExpiry
  | beatTimerExpiry
  | absenceTimerExpiry (n : StationNo)
  | catchupWaitExpiry
  | holdTimerExpiry (tag : Tag)
  | hostCheckExpiry
  | idleTimerExpiry
  /-- LINE_STUCK (R69): the levels read in SETTLING since the last bit read; left out, a whole stuck period's first 65. -/
  | lineStuck (levels : List Bool := List.replicate 65 false)
  /-- LINE_CLEAR (R70): the levels read in STUCK since the last bit read; left out, one whole idle gap. -/
  | lineClear (levels : List Bool := List.replicate 11 true)
  /-- RELEASE_IN_PIN_CHANGE (R168): the outside puts this level at the pin of a zone line. -/
  | releaseInPinChange (line : LineNo) (high : Bool)
  | qualificationExpiry (line : LineNo)
  /-- RELEASE_EDGE (R169): a qualified release edge for a zone reaches the slot unit. -/
  | releaseEdge (zone : Nat)
  | ssnFallingEdge
  | resetPinAsserted
  | powerLoss
  deriving DecidableEq, Repr

end Sys2Proof
end

