-- ==== Sys2Proof/Decode.lean ====
section
/-! DEFINITION. Decode.lean: the command that a word spells by the bits of spec/opcode_table.json. No row of that table
gives a bit (every row's "fields" is empty and none has "fixed"): the part's commands are happenings, not words. What the
part does decode, the bits of a frame and the bytes of a transaction, is decoded by Machine/Wire.lean and
Machine/Operands.lean. -/

namespace Sys2Proof

/-- The command that the word `w` of `nbits` bits spells: none, since no row of the table gives bits. -/
def decodeTableWord (nbits w : Nat) : Option Instr :=
  match nbits, w with
  | _, _ => none

end Sys2Proof
end

