-- ==== Sys2Proof/Config.lean ====
section
/-! DEFINITION. Config.lean: the part's fixed capacities and the values the manual leaves free. -/

namespace Sys2Proof.Config

/-- R4: a table holds at most 48 records. -/
def maxRecords : Nat := 48

/-- R4: at most 8 records with the same owner. -/
def maxPerOwner : Nat := 8

/-- R117: the hold-back queue holds at most 16 frames. -/
def maxHoldBack : Nat := 16

/-- R121: the serve list holds at most 4 requests. -/
def maxServeList : Nat := 4

/-- R189: the event queue never holds more than 32 records. -/
def maxEvents : Nat := 32

/-- R51: the idle gap is 11 bit times. -/
def idleGap : Nat := 11

/-- R69: the line is stuck when it has been dominant for more than 64 bit times. -/
def stuckBits : Nat := 64

/-- R168: a release edge is qualified after 1 ms. -/
def qualificationMs : Nat := 1

/-- R48: the receiver veto run that takes a station out of step. -/
def rxRunLimit : Nat := 8

/-- R49, R118: the run of vetoed or faulted own attempts that has an effect. -/
def ownRunLimit : Nat := 3

/-- R135: the failed catch-up attempt that isolates the station. -/
def maxAttempts : Nat := 3

/-- What SDO carries in byte 1 of a FETCH transaction. R173 states the status byte, the bytes after byte 1 of a FETCH
and the bytes of every OTHER transaction; this one byte it does not state. DESIGN CHOICE, safe: a free value, drawn
with the counter `freeCount` of the state (log 6). -/
opaque freeByte : Nat → Byte

end Sys2Proof.Config
end

