-- ==== Sys2Proof/Machine/Bits.lean ====
section
/-! DEFINITION. Machine/Bits.lean: bit and byte order (R196), sequence-number arithmetic (R30), the stuffing of a frame
(R197), the check computation and the digest listing (R200). -/

namespace Sys2Proof.Machine

/-- The `w` bits of `n`, most significant bit first (R196). -/
def bitsOf (w n : Nat) : List Bool := (List.range w).map fun i => n.testBit (w - 1 - i)

/-- The number that bits spell, most significant bit first (R196). -/
def natOf (bits : List Bool) : Nat := bits.foldl (fun acc b => 2 * acc + b.toNat) 0

/-- The bits of a byte, bit 7 first (R196). -/
def byteBits (b : Byte) : List Bool := bitsOf 8 b.toNat

/-- The bits of a 16-bit field, most significant bit first. -/
def halfBits (h : Half) : List Bool := bitsOf 16 h.toNat

/-- A 16-bit field as two bytes, the most significant first (R196). -/
def halfBytes (h : Half) : List Byte := [BitVec.ofNat 8 (h.toNat / 256), BitVec.ofNat 8 (h.toNat % 256)]

/-- The 16-bit field of two bytes, the most significant first (R196). -/
def halfOf (hi lo : Byte) : Half := BitVec.ofNat 16 (hi.toNat * 256 + lo.toNat)

/-- A number as one byte. -/
def byteOf (n : Nat) : Byte := BitVec.ofNat 8 n

/-- A flag as the number its bit stands for. -/
def flagAt (bit : Nat) (b : Bool) : Nat := if b then 2 ^ bit else 0

/-- R30: `a` is later than `b`. -/
def later (a b : Seq) : Bool := decide (1 ≤ (a - b).toNat) && decide ((a - b).toNat ≤ 32767)

/-- R30: `a` is earlier than `b`. -/
def earlier (a b : Seq) : Bool := decide (32769 ≤ (a - b).toNat)

/-- R30: `a` is opposite `b`. -/
def opposite (a b : Seq) : Bool := decide ((a - b).toNat = 32768)

/-- R186: an increment that finds a counter at 65535 leaves it at 65535. -/
def satInc (c : Half) : Half := if c = 0xFFFF#16 then c else c + 1#16

/-- R200: one input bit of the check computation. -/
def checkStep (reg : Half) (bit : Bool) : Half :=
  if bit ^^ reg.msb then (reg <<< 1) ^^^ 0x1253#16 else reg <<< 1

/-- R200: the check value over the input bits. -/
def checkValue (bits : List Bool) : Half := bits.foldl checkStep 0xFFFF#16

/-- R200: the check value over a listing of bytes. -/
def checkBytes (bytes : List Byte) : Half := checkValue (bytes.flatMap byteBits)

/-- R200: the listing of the four shared fields that the digest covers. -/
def digestListing (zoneCount poolCapacity beatInterval absenceLimit : Nat) : List Byte :=
  [byteOf zoneCount] ++ halfBytes (BitVec.ofNat 16 poolCapacity) ++ halfBytes (BitVec.ofNat 16 beatInterval) ++
    [byteOf absenceLimit]

/-- R181, R200: the digest over the four shared fields. -/
def digestOf (zoneCount poolCapacity beatInterval absenceLimit : Nat) : Half :=
  checkBytes (digestListing zoneCount poolCapacity beatInterval absenceLimit)

/-- R197: the stuffing of the rest of a span, after a run of `run` bits of level `last`. A stuff bit counts toward the
next run. -/
def stuffAfter (last : Bool) (run : Nat) : List Bool → List Bool
  | [] => []
  | b :: rest =>
    let n := if b = last then run + 1 else 1
    if n = 5 then b :: (!b) :: stuffAfter (!b) 1 rest else b :: stuffAfter b n rest

/-- R197: a stuff bit after every five consecutive bits of one level. -/
def stuff (bits : List Bool) : List Bool := stuffAfter true 0 bits

/-- R197: the receiver's side of `stuffAfter`: a bit that follows five consecutive bits of one level is removed. -/
def unstuffAfter (last : Bool) (run : Nat) : List Bool → List Bool
  | [] => []
  | b :: rest =>
    if run = 5 then unstuffAfter b 1 rest
    else b :: unstuffAfter b (if b = last then run + 1 else 1) rest

/-- R197: the unstuffed content. -/
def unstuff (bits : List Bool) : List Bool := unstuffAfter true 0 bits

/-- R197: of the levels read from the start bit to the recessive run that shows the end, the frame's content. The last
dominant bit before the run is the end delimiter's and is discarded. -/
def contentOf (levels : List Bool) : List Bool := ((levels.reverse.dropWhile id).drop 1).reverse

/-- The length of the run of one level that a list of levels begins with. -/
def headRun : List Bool → Nat
  | [] => 0
  | [_] => 1
  | a :: b :: rest => if a = b then headRun (b :: rest) + 1 else 1

/-- R197: no run of six equal levels. -/
def noRunOfSix : List Bool → Bool
  | [] => true
  | b :: rest => decide (headRun (b :: rest) < 6) && noRunOfSix rest

/-- R197: these levels, read from the start bit on, end with the first run of six equal levels, and the run is of this
level: recessive, the frame has ended; dominant, it is broken. -/
def endsAtRunOf (level : Bool) (levels : List Bool) : Bool :=
  noRunOfSix levels.dropLast && decide (6 ≤ levels.length) &&
    decide (levels.drop (levels.length - 6) = List.replicate 6 level)

end Sys2Proof.Machine
end

