-- ==== Sys2Proof/Machine/State.lean ====
section
/-! DEFINITION. Machine/State.lean: the state of one JN-3216 as plain data, block by block, and its reset value. -/

namespace Sys2Proof.Machine

/-! ### The names the manual uses -/

/-- The nine station states (R75). -/
inductive StationState where
  | idle | listening | founding | joining | member | leaving | detached | refused | isolated
  deriving DecidableEq, Repr

/-- The step states (R31). -/
inductive StepState where
  | off | behind | inStep
  deriving DecidableEq, Repr

/-- The line view (R52). -/
inductive LineView where
  | settling | quiet | frame | stuck
  deriving DecidableEq, Repr

/-- The line rates (R51). -/
inductive Rate where
  | k125 | k250 | k500 | k1000
  deriving DecidableEq, Repr

/-- The frame kinds (R198). -/
inductive Kind where
  | found | join | leave | beat | claim | release | withdraw | evict | syncreq | snap
  deriving DecidableEq, Repr

/-- The slot states (R138). -/
inductive SlotState where
  | free | pending | waiting | held | releasing | cancelling
  deriving DecidableEq, Repr

/-- The state of a claim record (R2). -/
inductive ClaimState where
  | waiting | held
  deriving DecidableEq, Repr

/-- The after-flight marks (R138). -/
inductive Mark where
  | none | releaseAfter | cancelAfter
  deriving DecidableEq, Repr

/-- Who asked for a release (R138). -/
inductive ReleaseCause where
  | host | hold | line | surrender
  deriving DecidableEq, Repr

/-- The kinds of a send-queue entry (R140). -/
inductive EntryKind where
  | claim | release | withdraw
  deriving DecidableEq, Repr

/-- The requester's phase (R114). -/
inductive Phase where
  | idle | requesting | awaiting | receiving
  deriving DecidableEq, Repr

/-- The zone line modes (R162). -/
inductive LineMode where
  | off | grantOut | memberOut | releaseIn
  deriving DecidableEq, Repr

/-- The polarity of a zone line (R162). -/
inductive Polarity where
  | high | low
  deriving DecidableEq, Repr

/-- The views (R184). -/
inductive View where
  | table | roster | slots
  deriving DecidableEq, Repr

/-- The event kinds (R188, R203). -/
inductive EventKind where
  | admitted | granted | refused | freed | withdrawn | tooLate | lost | holdExpired | hostSilent | stationState
  | peerIn | peerOut | peerRefused | mismatch | duplicate | catchupFail | lineStuck | lineClear | overflow
  deriving DecidableEq, Repr

/-- Causes and reasons (R203). -/
inductive Cause where
  | host | hold | line | surrender | left | notSent | gone | evicted | removed | adopted | dissolved | duplicate
  | catchup | config | resync | range | full | start | listenTimeout | heard | founded | foundVetoed | joined | depart
  | rejoin | new | renewed | request | timeout | part | gap | check
  deriving DecidableEq, Repr

/-- What an event's cause field holds: a cause, or, in a DUPLICATE event, the foreign frame's kind (R203). -/
inductive CauseField where
  | cause (c : Cause)
  | kind (k : Kind)
  deriving DecidableEq, Repr

/-- An event record (R188). A field that its kind does not fill is absent. -/
structure Event where
  kind    : EventKind
  seq     : Option Seq := none
  tag     : Option Tag := none
  station : Option StationNo := none
  state   : Option StationState := none
  cause   : Option CauseField := none
  count   : Option Nat := none
  deriving DecidableEq, Repr

/-! ### Timers -/

/-- A timer that is stopped or runs with the time left, in ms. -/
inductive Timer where
  | stopped
  | running (left : Nat)
  deriving DecidableEq, Repr

/-- A timer that can also stand expired (R100, R156). -/
inductive Watch where
  | stopped
  | running (left : Nat)
  | expired
  deriving DecidableEq, Repr

/-! ### Frames -/

/-- A claim record as a SNAP part carries it (R199). -/
structure RecordPart where
  owner          : Byte
  tag            : Byte
  zonesPresent   : Bool
  held           : Bool
  grantedPresent : Bool
  lo             : Byte
  hi             : Byte
  units          : Half
  admittedAt     : Seq
  grantedAt      : Seq
  deriving DecidableEq, Repr

/-- The bodies of the frame kinds, with their fields as carried (R55, R56, R199). -/
inductive Body where
  | found (digest : Half)
  | join (digest : Half)
  | leave
  | beat (fingerprint : Half)
  | claim (tag : Byte) (zonesPresent : Bool) (lo hi : Byte) (units : Half)
  | release (tag : Byte)
  | withdraw (tag : Byte)
  | evict (target : Byte)
  | syncreq
  | snapHeader (target count : Byte) (digest members inUse fingerprint : Half) (lastTaken : List Seq)
  | snapRecord (target index count : Byte) (record : RecordPart)
  deriving DecidableEq, Repr

/-- A frame (R53): sender, seq field and body. Class, kind and body length follow from the body. -/
structure Frame where
  sender : StationNo
  seq    : Seq
  body   : Body
  deriving DecidableEq, Repr

/-- How a frame heard is classed (R57). -/
inductive Received where
  | good (f : Frame)
  | failed
  | malformed
  deriving DecidableEq, Repr

/-- Where an own frame comes from (R61). Two attempts are of the same frame exactly when their sources are equal
(R49). -/
inductive Source where
  | leave
  | evict (target : StationNo)
  | queue (id : Nat) (kind : EntryKind)
  | syncreq
  | snap (index : Nat)
  | found
  | join
  | beat
  deriving DecidableEq, Repr

/-- An own attempt: its source and the copy fixed at the start bit (R62). -/
structure Attempt where
  source : Source
  frame  : Frame
  deriving DecidableEq, Repr

/-! ### Line interface (R52) -/

/-- The transmitter (R52). -/
inductive Transmitter where
  | idle
  | offering (a : Attempt)
  | sending (a : Attempt)
  deriving DecidableEq, Repr

/-- A station's vote on a frame (R39, R40). `acceptLater` is case 5: accepted, and the station enters BEHIND at the
outcome. `abstain`: the station casts no vote. -/
inductive Vote where
  | abstain | accept | acceptLater | veto
  deriving DecidableEq, Repr

/-- What stands between a frame's end and the end of its agreement slot (R58, R64). -/
inductive Awaiting where
  | nothing
  /-- another station's frame, classed, with this station's vote -/
  | heard (r : Received) (v : Vote)
  /-- a good SNAP: its slot is read and nothing is reported (R58) -/
  | snapPart
  /-- the remains of this station's own attempt that ended FAULT (R64) -/
  | ownRemains
  deriving DecidableEq, Repr

/-- An own attempt that ended FAULT and whose outcome has not reached its source (R64). -/
structure Faulted where
  attempt : Attempt
  /-- the bit at which it stopped, counted from 1 at the start bit -/
  bit     : Nat
  deriving DecidableEq, Repr

/-- The line interface (R52). -/
structure LineIf where
  view      : LineView
  /-- recessive bit times counted without a break in SETTLING, QUIET and STUCK, up to the idle gap -/
  quietBits : Nat
  /-- dominant bit times counted without a break in SETTLING and STUCK, up to the first beyond R69's limit -/
  dominantBits : Nat
  tx        : Transmitter
  /-- the frame being received, filled bit by bit: the levels read so far, the start bit first. For an own frame they run
  on through its agreement slot. -/
  rx        : Option (List Bool)
  awaiting  : Awaiting
  /-- the levels read so far in bit times 7 to 9 after the end of another station's frame: its slot is 8 and 9 (R197) -/
  slot      : List Bool
  faulted   : Option Faulted
  stuck     : Bool
  /-- the model's own: bit times since the last whole millisecond (log 2) -/
  clock     : Nat
  deriving DecidableEq, Repr

/-! ### Order tracker (R31) -/

structure Order where
  step      : StepState
  expected  : Seq
  lastHeard : Option Seq
  rxRun     : Nat
  ownRun    : Nat
  /-- the own frame that `ownRun` counts (R49) -/
  ownRunOf  : Option Source
  deriving DecidableEq, Repr

/-! ### Reservation table (R1, R2) -/

/-- A range lo..hi of zones (R2). -/
structure Range where
  lo : Nat
  hi : Nat
  deriving DecidableEq, Repr

/-- A claim record (R2). -/
structure Record where
  owner      : StationNo
  tag        : Tag
  zones      : Option Range
  units      : Nat
  state      : ClaimState
  admittedAt : Seq
  grantedAt  : Option Seq
  deriving DecidableEq, Repr

/-- The table (R1). The zone count and the capacity are the configuration's (R7). -/
structure Table where
  records : List Record
  zoneMap : Vector (Option (StationNo × Tag)) 32
  inUse   : Nat
  deriving DecidableEq, Repr

/-! ### Roster (R78) -/

structure Member where
  joinedAt  : Seq
  lastTaken : Seq
  deriving DecidableEq, Repr

structure Roster where
  members : Vector (Option Member) 16
  digest  : Option Half
  deriving DecidableEq, Repr

/-! ### Membership controller (R75) -/

structure Membership where
  state        : StationState
  number       : Option StationNo
  rate         : Rate
  strapFault   : Bool
  ownDigest    : Half
  locked       : Bool
  listen       : Timer
  pendingFound : Bool
  pendingJoin  : Bool
  pendingLeave : Bool
  deriving DecidableEq, Repr

/-! ### Presence timers (R100) -/

/-- The evict flag of station n is set exactly while its absence timer is expired (R100). -/
structure Presence where
  beat        : Timer
  beatPending : Bool
  absence     : Vector Watch 16
  deriving DecidableEq, Repr

/-! ### Catch-up unit (R114) -/

/-- A taken frame held back, and whether this station sent it (R41, R46; DEDUCED, log 8). -/
structure Held where
  frame : Frame
  own   : Bool
  deriving DecidableEq, Repr

/-- The received snapshot (R114, R126): the header's fields, its sender, and the record parts so far. -/
structure Snapshot where
  sender      : StationNo
  base        : Seq
  count       : Nat
  digest      : Half
  members     : Half
  inUse       : Half
  fingerprint : Half
  lastTaken   : List Seq
  records     : List RecordPart
  next        : Nat
  deriving DecidableEq, Repr

/-- The serve in progress (R114). -/
structure Serve where
  requester : StationNo
  base      : Seq
  count     : Nat
  index     : Nat
  deriving DecidableEq, Repr

/-- The snapshot buffer (R114, R122). -/
structure Capture where
  digest      : Option Half
  members     : Half
  inUse       : Nat
  fingerprint : Half
  lastTaken   : List Seq
  records     : List Record
  deriving DecidableEq, Repr

structure CatchUp where
  phase          : Phase
  syncreqPending : Bool
  vetoRun        : Nat
  attempts       : Nat
  holdBack       : List Held
  wait           : Timer
  snapshot       : Option Snapshot
  serve          : Option Serve
  serveList      : List StationNo
  buffer         : Option Capture
  deriving DecidableEq, Repr

/-! ### Slot unit (R138) -/

structure Slot where
  state      : SlotState
  zones      : Option Range
  units      : Nat
  holdLimit  : Nat
  admittedAt : Option Seq
  grantedAt  : Option Seq
  mark       : Mark
  cause      : Option ReleaseCause
  holdTimer  : Timer
  deriving DecidableEq, Repr

/-- A send-queue entry (R140). `id` is the model's serial of the entry (log 7). -/
structure Entry where
  id     : Nat
  kind   : EntryKind
  tag    : Tag
  /-- purged while on the line: it leaves the queue at its outcome and settles nothing -/
  purged : Bool
  deriving DecidableEq, Repr

structure SlotUnit where
  slots     : Vector Slot 8
  queue     : List Entry
  nextId    : Nat
  hostCheck : Watch
  deriving DecidableEq, Repr

/-! ### Zone line unit (R162) -/

structure ZoneLines where
  /-- the settled level of a RELEASE_IN line; `true` is high -/
  settled : Vector Bool 8
  qual    : Vector Timer 8
  /-- the level the outside presents at each pin -/
  pinIn   : Vector Bool 8
  /-- zones whose release edge is handed on and has not reached the slot unit (R168, R169; DEDUCED, log 5) -/
  edges   : List Nat
  deriving DecidableEq, Repr

/-! ### Host port (R172) -/

/-- A taken request (R176). -/
structure Request where
  code : Byte
  body : List Byte
  deriving DecidableEq, Repr

/-- The transaction under way (R173, R177, R195). -/
inductive Spi where
  /-- after a reset: SSN has not yet been high -/
  | waitHigh
  /-- SSN is high -/
  | ready
  /-- SSN is low: the status byte latched at its fall and the response as it stood then (`none`: READY was clear) -/
  | opened (status : Byte) (response : Option (List Byte))
  deriving DecidableEq, Repr

structure Cursor where
  view  : View
  index : Nat
  auto  : Bool
  deriving DecidableEq, Repr

structure Port where
  request   : Option Request
  response  : Option (List Byte)
  collided  : Bool
  events    : List Event
  idleTimer : Timer
  idleFlag  : Bool
  cursor    : Cursor
  /-- the 28 counters, in the order of R186 -/
  counters  : Vector Half 28
  spi       : Spi
  /-- what SDO shifted out in the transaction taken last -/
  sdo       : List Byte
  deriving DecidableEq, Repr

/-! ### Configuration (R180) -/

structure LineCfg where
  mode     : LineMode
  zone     : Nat
  polarity : Polarity
  deriving DecidableEq, Repr

structure Cfg where
  zoneCount       : Nat
  poolCapacity    : Nat
  beatInterval    : Nat
  absenceLimit    : Nat
  hostCheckPeriod : Nat
  triggerLevel    : Nat
  idleTimeout     : Nat
  lines           : Vector LineCfg 8
  deriving DecidableEq, Repr

/-- Supply and RESET_N (R71, R195). -/
inductive Power where
  | on | inReset | off
  deriving DecidableEq, Repr

/-! ### The state -/

/-- One station, and the queue of commands waiting for it (DESIGN CHOICE, log 1). -/
structure State where
  power     : Power
  cfg       : Cfg
  line      : LineIf
  order     : Order
  table     : Table
  roster    : Roster
  mem       : Membership
  pres      : Presence
  cu        : CatchUp
  slots     : SlotUnit
  zl        : ZoneLines
  port      : Port
  freeCount : Nat
  pending   : List Instr
  deriving DecidableEq, Repr

/-- The reasons for a fault: there is none. The block has no stop of its own: what goes wrong is state (a response
code, an event, a counter, a flag), so no command of the model faults. Safe: nothing is left out by it. -/
inductive Fault where
  deriving DecidableEq, Repr

/-- The reasons for a refusal. -/
inductive Refusal where
  /-- A command that has no meaning yet. Raised by no command: every arm of `exec` calls a meaning. Safe. -/
  | notModelled (mnemonic : String)
  deriving DecidableEq, Repr

/-! ### Reset values -/

/-- The defaults of SETUP (R180). -/
def Cfg.default : Cfg where
  zoneCount := 32
  poolCapacity := 0
  beatInterval := 100
  absenceLimit := 4
  hostCheckPeriod := 0
  triggerLevel := 1
  idleTimeout := 0
  lines := Vector.replicate 8 { mode := .off, zone := 0, polarity := .high }

/-- R52. -/
def LineIf.initial : LineIf where
  view := .settling
  quietBits := 0
  dominantBits := 0
  tx := .idle
  rx := none
  awaiting := .nothing
  slot := []
  faulted := none
  stuck := false
  clock := 0

/-- R31. -/
def Order.initial : Order where
  step := .off
  expected := 0
  lastHeard := none
  rxRun := 0
  ownRun := 0
  ownRunOf := none

/-- R24: the empty table. -/
def Table.empty : Table where
  records := []
  zoneMap := Vector.replicate 32 none
  inUse := 0

/-- R78: the empty roster. -/
def Roster.empty : Roster where
  members := Vector.replicate 16 none
  digest := none

/-- R100: every timer stopped, nothing pending. -/
def Presence.stopped : Presence where
  beat := .stopped
  beatPending := false
  absence := Vector.replicate 16 .stopped

/-- R114: both sides idle. -/
def CatchUp.idle : CatchUp where
  phase := .idle
  syncreqPending := false
  vetoRun := 0
  attempts := 0
  holdBack := []
  wait := .stopped
  snapshot := none
  serve := none
  serveList := []
  buffer := none

/-- R138: a FREE slot holds nothing but its tag. -/
def Slot.empty : Slot where
  state := .free
  zones := none
  units := 0
  holdLimit := 0
  admittedAt := none
  grantedAt := none
  mark := .none
  cause := none
  holdTimer := .stopped

/-- R138. -/
def SlotUnit.initial : SlotUnit where
  slots := Vector.replicate 8 Slot.empty
  queue := []
  nextId := 0
  hostCheck := .stopped

/-- R162: every line OFF; the pins' outside levels low (DESIGN CHOICE, log 4). -/
def ZoneLines.initial : ZoneLines where
  settled := Vector.replicate 8 false
  qual := Vector.replicate 8 .stopped
  pinIn := Vector.replicate 8 false
  edges := []

/-- R172. -/
def Cursor.initial : Cursor := { view := .table, index := 0, auto := false }

/-- R172: after power-on or the RESET pin. -/
def Port.initial : Port where
  request := none
  response := none
  collided := false
  events := []
  idleTimer := .stopped
  idleFlag := false
  cursor := Cursor.initial
  counters := Vector.replicate 28 0
  spi := .ready
  sdo := []

/-- R75: after power-on or the RESET pin, with every strap at level 0 (DESIGN CHOICE, log 3). -/
def Membership.initial : Membership where
  state := .idle
  number := some 0
  rate := .k125
  strapFault := false
  ownDigest := digestOf 32 0 100 4
  locked := false
  listen := .stopped
  pendingFound := false
  pendingJoin := false
  pendingLeave := false

/-- The machine right after power-on: every block at the value its chapter gives (R1, R31, R52, R75, R78, R100, R114,
R138, R162, R172), the straps all at level 0 and SSN high (DESIGN CHOICE, log 3), no command waiting. -/
def State.reset : State where
  power := .on
  cfg := Cfg.default
  line := LineIf.initial
  order := Order.initial
  table := Table.empty
  roster := Roster.empty
  mem := Membership.initial
  pres := Presence.stopped
  cu := CatchUp.idle
  slots := SlotUnit.initial
  zl := ZoneLines.initial
  port := Port.initial
  freeCount := 0
  pending := []

end Sys2Proof.Machine
end

