-- ==== Sys2Proof/Machine/Wire.lean ====
section
/-! DEFINITION. Machine/Wire.lean: a frame as the bits of the line, sent and received (R53 to R57, R197 to R199). -/

namespace Sys2Proof.Machine

/-- R198: the kind codes. -/
def Kind.code : Kind → Nat
  | .found => 0x1
  | .join => 0x2
  | .leave => 0x3
  | .beat => 0x4
  | .claim => 0x5
  | .release => 0x6
  | .withdraw => 0x7
  | .evict => 0x8
  | .syncreq => 0x9
  | .snap => 0xA

/-- R54: the class of each kind. -/
def Kind.cls : Kind → Nat
  | .leave | .evict | .release | .withdraw => 0
  | .syncreq | .snap => 1
  | .found | .join | .claim => 2
  | .beat => 3

/-- The kind of a body. -/
def Body.kind : Body → Kind
  | .found .. => .found
  | .join .. => .join
  | .leave => .leave
  | .beat .. => .beat
  | .claim .. => .claim
  | .release .. => .release
  | .withdraw .. => .withdraw
  | .evict .. => .evict
  | .syncreq => .syncreq
  | .snapHeader .. => .snap
  | .snapRecord .. => .snap

/-- R29: every kind but SNAP is sequenced. -/
def Body.sequenced (b : Body) : Bool := b.kind ≠ .snap

/-- R199: the body bytes, in order. Unused bits are sent as 0 (R198). -/
def Body.bytes : Body → List Byte
  | .found d => halfBytes d
  | .join d => halfBytes d
  | .leave => []
  | .beat fp => halfBytes fp
  | .claim tag zp lo hi units => [tag, byteOf (flagAt 0 zp), lo, hi] ++ halfBytes units
  | .release tag => [tag]
  | .withdraw tag => [tag]
  | .evict target => [target]
  | .syncreq => []
  | .snapHeader target count digest members inUse fp lastTaken =>
    [target, 0, count] ++ halfBytes digest ++ halfBytes members ++ halfBytes inUse ++ halfBytes fp ++
      lastTaken.flatMap halfBytes
  | .snapRecord target index count r =>
    [target, index, count, r.owner, r.tag,
      byteOf (flagAt 0 r.zonesPresent + flagAt 1 r.held + flagAt 2 r.grantedPresent), r.lo, r.hi] ++
      halfBytes r.units ++ halfBytes r.admittedAt ++ halfBytes r.grantedAt

/-- R53, R200: the content that the check word covers: arbitration field, kind, seq field, body length, body. -/
def Frame.covered (f : Frame) : List Bool :=
  bitsOf 2 f.body.kind.cls ++ bitsOf 4 f.sender.val ++ bitsOf 4 f.body.kind.code ++ halfBits f.seq ++
    bitsOf 6 f.body.bytes.length ++ f.body.bytes.flatMap byteBits

/-- R197: the content from the start bit through the check word, before stuffing. -/
def Frame.content (f : Frame) : List Bool :=
  false :: (f.covered ++ halfBits (checkValue f.covered))

/-- R197: the levels a sender puts on the line, from the start bit through the end delimiter. -/
def Frame.levels (f : Frame) : List Bool :=
  stuff f.content ++ (false :: List.replicate 7 true)

/-- R197: the whole of what a sender puts on the line: the agreement slot is 1s from the sender. -/
def Frame.sent (f : Frame) : List Bool := f.levels ++ [true, true]

/-- R52, R63: how many levels pass from the start bit through the last bit of the arbitration field, the stuff bits
before that bit among them. -/
def Frame.arbitration (f : Frame) : Nat := (stuff (f.content.take 6)).length + 1

/-- R63, R64: of the levels read back since the start bit, the last differs from the bit sent, and none before it does. -/
def Frame.differsAt (f : Frame) (read : List Bool) : Bool :=
  match read.getLast?, f.levels[read.length - 1]? with
  | some x, some y => x != y && decide (read.dropLast = f.levels.take (read.length - 1))
  | _, _ => false

/-- R63: the difference is one that loses the arbitration: recessive sent and dominant read, no later than the last bit
of the arbitration field. -/
def Frame.losesAt (f : Frame) (read : List Bool) : Bool :=
  f.differsAt read && decide (read.length ≤ f.arbitration) && decide (read.getLast? = some false)

/-- The number of members a member-set field lists (R196). -/
def memberCount (members : Half) : Nat := ((List.range 16).filter fun n => members.toNat.testBit n).length

/-- Pairs of bytes as 16-bit fields. -/
def halvesOf : List Byte → List Half
  | hi :: lo :: rest => halfOf hi lo :: halvesOf rest
  | _ => []

/-- R199: the SNAP record part's claim record, from its flags byte on. -/
def recordPartOf (owner tag flags lo hi u1 u0 a1 a0 g1 g0 : Byte) : RecordPart where
  owner := owner
  tag := tag
  zonesPresent := flags.toNat.testBit 0
  held := flags.toNat.testBit 1
  grantedPresent := flags.toNat.testBit 2
  lo := lo
  hi := hi
  units := halfOf u1 u0
  admittedAt := halfOf a1 a0
  grantedAt := halfOf g1 g0

/-- R56, R57, R198, R199: the body of a SNAP, if its part count and part index are in range and its length is the one
for a header of its member set or for a record part. -/
def snapBody (bytes : List Byte) : Option Body :=
  match bytes with
  | target :: index :: count :: rest =>
    if 1 ≤ count.toNat ∧ count.toNat ≤ 49 ∧ index.toNat < count.toNat then
      if index = 0 then
        match rest with
        | d1 :: d0 :: m1 :: m0 :: u1 :: u0 :: p1 :: p0 :: more =>
          if more.length = 2 * memberCount (halfOf m1 m0) then
            some (.snapHeader target count (halfOf d1 d0) (halfOf m1 m0) (halfOf u1 u0) (halfOf p1 p0) (halvesOf more))
          else none
        | _ => none
      else
        match rest with
        | [owner, tag, flags, lo, hi, u1, u0, a1, a0, g1, g0] =>
          some (.snapRecord target index count (recordPartOf owner tag flags lo hi u1 u0 a1 a0 g1 g0))
        | _ => none
    else none
  | _ => none

/-- R198, R199: the body that a class, a kind code and body bytes give; none where the kind code names no kind, the class
does not match or the body length is not the kind's. -/
def bodyOf (cls kind : Nat) (bytes : List Byte) : Option Body :=
  match kind, cls, bytes with
  | 0x1, 2, [a, b] => some (.found (halfOf a b))
  | 0x2, 2, [a, b] => some (.join (halfOf a b))
  | 0x3, 0, [] => some .leave
  | 0x4, 3, [a, b] => some (.beat (halfOf a b))
  | 0x5, 2, [tag, flags, lo, hi, u1, u0] => some (.claim tag (flags.toNat.testBit 0) lo hi (halfOf u1 u0))
  | 0x6, 0, [tag] => some (.release tag)
  | 0x7, 0, [tag] => some (.withdraw tag)
  | 0x8, 0, [target] => some (.evict target)
  | 0x9, 1, [] => some .syncreq
  | 0xA, 1, bytes => snapBody bytes
  | _, _, _ => none

/-- The body bytes of `n` bytes' worth of bits. -/
def bytesOfBits : Nat → List Bool → List Byte
  | 0, _ => []
  | n + 1, bits => byteOf (natOf (bits.take 8)) :: bytesOfBits n (bits.drop 8)

/-- R57, R198: the class of the frame whose unstuffed content is `u`, with its fields when it is good. -/
def classify (u : List Bool) : Received :=
  let len := natOf ((u.drop 27).take 6)
  let covered := (u.drop 1).take (32 + 8 * len)
  if u.length < 33 ∨ u.length ≠ 49 + 8 * len ∨
      (checkValue covered).toNat ≠ natOf ((u.drop (33 + 8 * len)).take 16) then .failed
  else
    match bodyOf (natOf (covered.take 2)) (natOf ((covered.drop 6).take 4)) (bytesOfBits len (covered.drop 32)) with
    | some b =>
      .good { sender := Fin.ofNat 16 (natOf ((covered.drop 2).take 4))
              seq := BitVec.ofNat 16 (natOf ((covered.drop 10).take 16))
              body := b }
    | none => .malformed

/-- R197, R198: the frame that a receiver makes of the levels it read. -/
def receive (levels : List Bool) : Received := classify (unstuff (contentOf levels))

/-- A frame that the layouts of R199 can carry: part count and index in range, one last-taken number per member listed. -/
def Body.sendable : Body → Bool
  | .snapHeader _ count _ members _ _ lastTaken =>
    decide (1 ≤ count.toNat) && decide (count.toNat ≤ 49) && decide (lastTaken.length = memberCount members)
  | .snapRecord _ index count _ =>
    decide (1 ≤ index.toNat) && decide (count.toNat ≤ 49) && decide (index.toNat < count.toNat)
  | .found .. | .join .. | .leave | .beat .. | .claim .. | .release .. | .withdraw .. | .evict .. | .syncreq => true

end Sys2Proof.Machine
end

