-- ==== Sys2Proof/Machine/Table.lean ====
section
/-! DEFINITION. Machine/Table.lean: the reservation table's own operations: admission (R10 to R15), the walk (R16 to
R18), removal (R19 to R23), the application of a taken frame (R8, R9), the fingerprint (R26, R200) and the candidate of
an install (R25). -/

namespace Sys2Proof.Machine

/-- R13, R9: why a CLAIM is refused. -/
inductive RefuseReason where
  | duplicate | range | full
  deriving DecidableEq, Repr

/-- R9: the claim outcome. -/
inductive ClaimOutcome where
  | admitted
  | refused (r : RefuseReason)
  | ignored
  deriving DecidableEq, Repr

/-- R9: the tag outcome. -/
inductive TagOutcome where
  | removed | absent | stillHeld
  deriving DecidableEq, Repr

/-- R9: the application report. -/
structure Report where
  claim   : Option ClaimOutcome := none
  tag     : Option TagOutcome := none
  /-- the removed records, as they stood, in index order -/
  removed : List Record := []
  /-- owner and tag of the records granted, in the order of the walk -/
  grants  : List (StationNo × Tag) := []
  deriving DecidableEq, Repr

/-- The range covers the zone. -/
def Range.covers (g : Range) (z : Nat) : Bool := decide (g.lo ≤ z) && decide (z ≤ g.hi)

/-- The record asks for the zone. -/
def Record.covers (r : Record) (z : Nat) : Bool :=
  match r.zones with
  | some g => g.covers z
  | none => false

/-- R2: (owner, tag) names a record. -/
def Record.isOf (r : Record) (o : StationNo) (t : Nat) : Bool := decide (r.owner = o) && decide (r.tag.val = t)

/-- R2: the record of an owner and tag. -/
def Table.find (t : Table) (o : StationNo) (tag : Nat) : Option Record := t.records.find? fun r => r.isOf o tag

/-- The units of the HELD records of a list. -/
def heldUnits (rs : List Record) : Nat := ((rs.filter fun r => r.state = .held).map Record.units).sum

/-- Some HELD record of the list covers the zone. -/
def heldCovers (rs : List Record) (z : Nat) : Bool := rs.any fun r => decide (r.state = .held) && r.covers z

/-- R5: the owner and tag of the HELD record of a list that covers the zone. -/
def holderOf (rs : List Record) (z : Nat) : Option (StationNo × Tag) :=
  (rs.find? fun r => decide (r.state = .held) && r.covers z).map fun r => (r.owner, r.tag)

/-! ### The walk -/

/-- The state of a walk (R17). -/
structure Walk where
  /-- the records already visited, in index order -/
  done     : List Record
  /-- the ranges of the ungranted records visited: the set B of blocked zones -/
  blocked  : List Range
  /-- the flag P: an earlier ungranted record wants units -/
  poolWait : Bool
  zoneMap  : Vector (Option (StationNo × Tag)) 32
  inUse    : Nat
  grants   : List (StationNo × Tag)
  deriving DecidableEq, Repr

/-- R17, zones: the record has no zones, or every zone of its range is FREE in the zone map and not in B. -/
def Walk.zonesFree (w : Walk) (r : Record) : Bool :=
  match r.zones with
  | none => true
  | some g =>
    (List.finRange 32).all fun z =>
      !g.covers z.val || (decide (w.zoneMap[z] = none) && !w.blocked.any fun b => b.covers z.val)

/-- R17, units: the record's units are 0, or P is clear and they fit. -/
def Walk.unitsFree (w : Walk) (cap : Nat) (r : Record) : Bool :=
  decide (r.units = 0) || (!w.poolWait && decide (w.inUse + r.units ≤ cap))

/-- R5: every zone of the range marked HELD by owner and tag. -/
def markZones (m : Vector (Option (StationNo × Tag)) 32) (zones : Option Range) (who : StationNo × Tag) :
    Vector (Option (StationNo × Tag)) 32 :=
  match zones with
  | none => m
  | some g => Vector.ofFn fun z => if g.covers z.val then some who else m[z]

/-- R18: the grant of a record. -/
def Walk.grant (w : Walk) (seq : Seq) (r : Record) : Walk :=
  { w with
    done := w.done ++ [{ r with state := .held, grantedAt := some seq }]
    zoneMap := markZones w.zoneMap r.zones (r.owner, r.tag)
    inUse := w.inUse + r.units
    grants := w.grants ++ [(r.owner, r.tag)] }

/-- R17: a record not granted adds its zones to B and, when it wants units, sets P. -/
def Walk.passOver (w : Walk) (r : Record) : Walk :=
  { w with
    done := w.done ++ [r]
    blocked := w.blocked ++ r.zones.toList
    poolWait := w.poolWait || decide (0 < r.units) }

/-- R17: the walk visits one record. -/
def Walk.visit (cap : Nat) (seq : Seq) (w : Walk) (r : Record) : Walk :=
  match r.state with
  | .held => { w with done := w.done ++ [r] }
  | .waiting => if w.zonesFree r && w.unitsFree cap r then w.grant seq r else w.passOver r

/-- The walk before its first record. -/
def Table.walkStart (t : Table) : Walk :=
  { done := [], blocked := [], poolWait := false, zoneMap := t.zoneMap, inUse := t.inUse, grants := [] }

/-- R16, R17: one grant evaluation with the current sequence number. -/
def Table.evaluate (t : Table) (cap : Nat) (seq : Seq) : Table × List (StationNo × Tag) :=
  let w := t.records.foldl (Walk.visit cap seq) t.walkStart
  ({ records := w.done, zoneMap := w.zoneMap, inUse := w.inUse }, w.grants)

/-! ### Removal -/

/-- R3, R5, R6: the records that `p` names leave the table: HELD ones free their zones and return their units, the
others keep their order. -/
def Table.remove (t : Table) (p : Record → Bool) : Table × List Record :=
  let gone := t.records.filter p
  ({ records := t.records.filter fun r => !p r
     zoneMap := Vector.ofFn fun z => if heldCovers gone z.val then none else t.zoneMap[z]
     inUse := t.inUse - heldUnits gone }, gone)

/-- R24: a clear. -/
def Table.clear (_ : Table) : Table := Table.empty

/-- R8, R16: a removal, and one evaluation when it removed at least one record. -/
def Table.removeAndEvaluate (t : Table) (cap : Nat) (seq : Seq) (p : Record → Bool) (tag : Option TagOutcome) :
    Table × Report :=
  let (t1, gone) := t.remove p
  if gone.isEmpty then (t, { tag := tag })
  else
    let (t2, grants) := t1.evaluate cap seq
    (t2, { tag := tag, removed := gone, grants := grants })

/-! ### Admission -/

/-- R13: what a CLAIM asks for cannot be held in this table. -/
def claimOutOfRange (cfg : Cfg) (tag : Byte) (zonesPresent : Bool) (lo hi : Byte) (units : Half) : Bool :=
  decide (7 < tag.toNat) || (zonesPresent && decide (hi.toNat < lo.toNat)) ||
    (zonesPresent && decide (cfg.zoneCount ≤ hi.toNat)) || decide (cfg.poolCapacity < units.toNat) ||
    (!zonesPresent && decide (units.toNat = 0))

/-- R10: the claim outcome, by the first case that applies. -/
def Table.admission (t : Table) (cfg : Cfg) (isMember : Bool) (o : StationNo) (tag : Byte) (zonesPresent : Bool)
    (lo hi : Byte) (units : Half) : ClaimOutcome :=
  if !isMember then .ignored
  else if (t.find o tag.toNat).isSome then .refused .duplicate
  else if claimOutOfRange cfg tag zonesPresent lo hi units then .refused .range
  else if Config.maxRecords ≤ t.records.length ∨
      Config.maxPerOwner ≤ (t.records.filter fun r => r.owner = o).length then .refused .full
  else .admitted

/-- R15: the record that an admitted CLAIM appends. -/
def newRecord (o : StationNo) (tag : Byte) (zonesPresent : Bool) (lo hi : Byte) (units : Half) (seq : Seq) : Record where
  owner := o
  tag := Fin.ofNat 8 tag.toNat
  zones := if zonesPresent then some { lo := lo.toNat, hi := hi.toNat } else none
  units := units.toNat
  state := .waiting
  admittedAt := seq
  grantedAt := none

/-- R10, R15, R16: the application of a CLAIM. -/
def Table.applyClaim (t : Table) (cfg : Cfg) (isMember : Bool) (o : StationNo) (tag : Byte) (zonesPresent : Bool)
    (lo hi : Byte) (units : Half) (seq : Seq) : Table × Report :=
  match t.admission cfg isMember o tag zonesPresent lo hi units with
  | .admitted =>
    let t1 := { t with records := t.records ++ [newRecord o tag zonesPresent lo hi units seq] }
    let (t2, grants) := t1.evaluate cfg.poolCapacity seq
    (t2, { claim := some .admitted, grants := grants })
  | c => (t, { claim := some c })

/-! ### Application -/

/-- R8, R9: the application of one taken frame at the table. `isMember` is the member set as it stood before the frame's
own roster effect. -/
def Table.apply (t : Table) (cfg : Cfg) (isMember : StationNo → Bool) (f : Frame) : Table × Report :=
  let cap := cfg.poolCapacity
  match f.body with
  | .claim tag zp lo hi units => t.applyClaim cfg (isMember f.sender) f.sender tag zp lo hi units f.seq
  | .release tag =>
    let found := (t.find f.sender tag.toNat).isSome
    t.removeAndEvaluate cap f.seq (fun r => r.isOf f.sender tag.toNat) (some (if found then .removed else .absent))
  | .withdraw tag =>
    match t.find f.sender tag.toNat with
    | none => (t, { tag := some .absent })
    | some r =>
      match r.state with
      | .held => (t, { tag := some .stillHeld })
      | .waiting => t.removeAndEvaluate cap f.seq (fun r => r.isOf f.sender tag.toNat) (some .removed)
  | .leave =>
    if isMember f.sender then t.removeAndEvaluate cap f.seq (fun r => r.owner = f.sender) none else (t, {})
  | .join _ =>
    if isMember f.sender then t.removeAndEvaluate cap f.seq (fun r => r.owner = f.sender) none else (t, {})
  | .evict target =>
    if h : target.toNat < 16 then
      let x : StationNo := ⟨target.toNat, h⟩
      if isMember x && decide (x ≠ f.sender) then t.removeAndEvaluate cap f.seq (fun r => r.owner = x) none
      else (t, {})
    else (t, {})
  | .beat _ | .syncreq | .found _ | .snapHeader .. | .snapRecord .. => (t, {})

/-! ### The fingerprint -/

/-- R200: a record's ten bytes of the fingerprint listing. A record without zones lists FFh, FFh. -/
def Record.listing (r : Record) : List Byte :=
  [byteOf r.owner.val, byteOf r.tag.val] ++
    (match r.zones with
     | some g => [0x01#8, byteOf g.lo, byteOf g.hi]
     | none => [0x00#8, 0xFF#8, 0xFF#8]) ++
    halfBytes (BitVec.ofNat 16 r.units) ++
    [match r.state with | .waiting => 0x00#8 | .held => 0x01#8] ++ halfBytes r.admittedAt

/-- R26, R200: the fingerprint over group digest, member set, pool in use and records. -/
def fingerprintOf (digest : Option Half) (members : Half) (inUse : Nat) (records : List Record) : Half :=
  checkBytes (halfBytes (digest.getD 0) ++ halfBytes members ++ halfBytes (BitVec.ofNat 16 inUse) ++
    records.flatMap Record.listing)

/-! ### The candidate of an install -/

/-- R25, R199: a record part as a claim record, if owner, tag, range, units and flags are as a record's are
(DEDUCED, log 19). -/
def recordOfPart (cfg : Cfg) (members : Half) (p : RecordPart) : Option Record :=
  if p.owner.toNat < 16 ∧ members.toNat.testBit p.owner.toNat ∧ p.tag.toNat < 8 ∧
      (p.zonesPresent → p.lo.toNat ≤ p.hi.toNat ∧ p.hi.toNat < cfg.zoneCount) ∧
      p.units.toNat ≤ cfg.poolCapacity ∧ (p.zonesPresent ∨ 0 < p.units.toNat) ∧ p.grantedPresent = p.held then
    some { owner := Fin.ofNat 16 p.owner.toNat
           tag := Fin.ofNat 8 p.tag.toNat
           zones := if p.zonesPresent then some { lo := p.lo.toNat, hi := p.hi.toNat } else none
           units := p.units.toNat
           state := if p.held then .held else .waiting
           admittedAt := p.admittedAt
           grantedAt := if p.grantedPresent then some p.grantedAt else none }
  else none

/-- R25: the record parts as records, if every one passes. -/
def recordsOfParts (cfg : Cfg) (members : Half) : List RecordPart → Option (List Record)
  | [] => some []
  | p :: rest =>
    match recordOfPart cfg members p, recordsOfParts cfg members rest with
    | some r, some rs => some (r :: rs)
    | _, _ => none

/-- R4: no two records with the same owner and tag. -/
def distinctClaims : List Record → Bool
  | [] => true
  | r :: rest => !(rest.any fun q => q.isOf r.owner r.tag.val) && distinctClaims rest

/-- R5: no zone lies in the ranges of two HELD records. -/
def heldDisjoint (rs : List Record) : Bool :=
  (List.finRange 32).all fun z => decide ((rs.filter fun r => decide (r.state = .held) && r.covers z.val).length ≤ 1)

/-- R4: at most eight records with the same owner. -/
def ownersWithinLimit (rs : List Record) : Bool :=
  (List.finRange 16).all fun o => decide ((rs.filter fun r => r.owner = o).length ≤ Config.maxPerOwner)

/-- R25: the candidate table of a list of records. -/
def Table.ofRecords (rs : List Record) : Table where
  records := rs
  zoneMap := Vector.ofFn fun z => holderOf rs z.val
  inUse := heldUnits rs

/-- R25, R129: the candidate built from a received snapshot, if the table and the roster accept it. -/
def candidate (cfg : Cfg) (sn : Snapshot) : Option Table :=
  match recordsOfParts cfg sn.members sn.records with
  | none => none
  | some rs =>
    if rs.length ≤ Config.maxRecords ∧ distinctClaims rs ∧ ownersWithinLimit rs ∧ heldDisjoint rs ∧
        heldUnits rs ≤ cfg.poolCapacity ∧ heldUnits rs = sn.inUse.toNat ∧
        fingerprintOf (some sn.digest) sn.members (heldUnits rs) rs = sn.fingerprint ∧ sn.members ≠ 0 then
      some (Table.ofRecords rs)
    else none

end Sys2Proof.Machine
end

