-- ==== Sys2Proof/Machine/Flags.lean ====
section
/-! DEFINITION. Machine/Flags.lean: what follows from the state without being stored: the flags of the status byte
(R174, R201), INT_N (R194), the covered set (R139), the levels of the zone lines (R164 to R167), membership and the
roles (R80), evict flags (R100), what is on the line (R62). -/

namespace Sys2Proof.Machine

/-! ### Host port -/

/-- R172: BUSY is set exactly while the request buffer holds a request. -/
def Port.busy (p : Port) : Bool := p.request.isSome

/-- R172: READY is set exactly while the response buffer holds a response. -/
def Port.ready (p : Port) : Bool := p.response.isSome

/-- R192: the event queue holds at least one record. -/
def State.eventsFlag (s : State) : Bool := !s.port.events.isEmpty

/-- R192: the depth is at least the event trigger level. -/
def State.triggerFlag (s : State) : Bool := decide (s.cfg.triggerLevel ≤ s.port.events.length)

/-- R174: the step state is IN_STEP. -/
def State.inStepFlag (s : State) : Bool := decide (s.order.step = .inStep)

/-- R174: the station state is MEMBER or LEAVING. -/
def State.memberFlag (s : State) : Bool := decide (s.mem.state = .member) || decide (s.mem.state = .leaving)

/-- R201: the status byte. -/
def State.statusByte (s : State) : Byte :=
  byteOf (flagAt 7 s.port.busy + flagAt 6 s.port.ready + flagAt 5 s.port.collided + flagAt 4 s.eventsFlag +
    flagAt 3 s.triggerFlag + flagAt 2 s.port.idleFlag + flagAt 1 s.inStepFlag + flagAt 0 s.memberFlag)

/-- R194: INT_N is asserted while TRIGGER or the idle flag is set. Without supply nothing pulls it down. -/
def State.intAsserted (s : State) : Bool := decide (s.power ≠ .off) && (s.triggerFlag || s.port.idleFlag)

/-- What the part does to the SDO pin (R173). -/
inductive SdoDrive where
  | highZ | driven
  deriving DecidableEq, Repr

/-- R173, R195: SDO is driven while SSN is low in a transaction that the port takes part in, and is high impedance
otherwise: while SSN is high, in a reset, and after it until SSN has been high (DEDUCED, log 29). -/
def State.sdoDrive (s : State) : SdoDrive :=
  match s.power, s.port.spi with
  | .on, .opened .. => .driven
  | _, _ => .highZ

/-! ### Zone lines -/

/-- R139: the covered set: the zone lies in the range of an own slot in state HELD. -/
def State.covers (s : State) (z : Nat) : Bool :=
  (List.finRange 8).any fun t =>
    decide (s.slots.slots[t].state = .held) &&
      (match s.slots.slots[t].zones with
       | some g => g.covers z
       | none => false)

/-- R101, R167: MEMBER and IN_STEP. -/
def State.memberInStep (s : State) : Bool := decide (s.mem.state = .member) && decide (s.order.step = .inStep)

/-- R165, R167: an output line's level: `some true` asserted, `some false` deasserted, none for other modes. -/
def State.lineAsserted (s : State) (l : LineNo) : Option Bool :=
  match s.cfg.lines[l].mode with
  | .grantOut => some (s.memberInStep && s.covers s.cfg.lines[l].zone)
  | .memberOut => some s.memberInStep
  | .off | .releaseIn => none

/-- What a zone line puts at its pin (R164). -/
inductive PinDrive where
  | highZ | low | high
  deriving DecidableEq, Repr

/-- R164: mode, polarity and level give the pin. Without supply no pin is driven (R71). -/
def State.pinDrive (s : State) (l : LineNo) : PinDrive :=
  if s.power = .off then .highZ
  else
    match s.lineAsserted l with
    | none => .highZ
    | some a => if decide (s.cfg.lines[l].polarity = .high) = a then .high else .low

/-! ### Roster -/

/-- The station is in the member set (R78). -/
def Roster.isMember (r : Roster) (n : StationNo) : Bool := (r.members[n]).isSome

/-- No station is in the member set. -/
def Roster.isVoid (r : Roster) : Bool := !(List.finRange 16).any fun n => r.isMember n

/-- R196: the member set as a field. -/
def Roster.word (r : Roster) : Half :=
  BitVec.ofNat 16 (((List.finRange 16).map fun n => flagAt n.val (r.isMember n)).sum)

/-- R80: the reference station. -/
def Roster.reference (r : Roster) : Option StationNo := (List.finRange 16).find? fun n => r.isMember n

/-- R80: the server for a SYNCREQ from `x`. -/
def Roster.server (r : Roster) (x : StationNo) : Option StationNo :=
  (List.finRange 16).find? fun n => decide (n ≠ x) && r.isMember n

/-- R122: the last-taken number of each member, in increasing order of station number. -/
def Roster.lastTakens (r : Roster) : List Seq := r.members.toList.filterMap fun m => m.map Member.lastTaken

/-- The fingerprint over the state's table and roster (R26). -/
def State.fingerprint (s : State) : Half :=
  fingerprintOf s.roster.digest s.roster.word s.table.inUse s.table.records

/-- This station's number is `n`. -/
def State.isMe (s : State) (n : StationNo) : Bool := decide (s.mem.number = some n)

/-! ### Presence -/

/-- R100: the evict flag of a station is set exactly while its absence timer is expired. -/
def Presence.evictFlag (p : Presence) (n : StationNo) : Bool := decide (p.absence[n] = .expired)

/-- R109: the target of a pending EVICT: the lowest-numbered station whose evict flag is set. -/
def Presence.evictTarget (p : Presence) : Option StationNo := (List.finRange 16).find? fun n => p.evictFlag n

/-- Absence time: absence limit × beat interval (R100). -/
def Cfg.absenceTime (c : Cfg) : Nat := c.absenceLimit * c.beatInterval

/-! ### Line -/

/-- The own attempt that the transmitter is offering or sending. -/
def LineIf.attempt (l : LineIf) : Option Attempt :=
  match l.tx with
  | .offering a | .sending a => some a
  | .idle => none

/-- R197: the level that a station which is no sender puts on the line in bit time 7 + `n` after a frame's end: dominant
in bit times 8 and 9 when it vetoes. -/
def Awaiting.drive (w : Awaiting) (n : Nat) : Bool :=
  match w with
  | .heard _ .veto => !(decide (n = 1) || decide (n = 2))
  | .nothing | .heard _ .abstain | .heard _ .accept | .heard _ .acceptLater | .snapPart | .ownRemains => true

/-- R51: the level that the station puts on the line in the bit time that comes: `false` drives it dominant, `true` leaves
it recessive. -/
def LineIf.drive (l : LineIf) : Bool :=
  match l.attempt with
  | some a => (a.frame.sent[(l.rx.getD []).length]?).getD true
  | none => l.awaiting.drive l.slot.length

/-- R62, R64: the own attempt whose frame is on the line: from its start bit to its outcome. -/
def LineIf.onLine (l : LineIf) : Option Attempt :=
  match l.tx with
  | .offering a | .sending a => some a
  | .idle => l.faulted.map Faulted.attempt

/-- R140: the send-queue entry is on the line. -/
def State.entryOnLine (s : State) (e : Entry) : Bool :=
  decide (s.line.onLine.map Attempt.source = some (.queue e.id e.kind))

/-- R140: the send-queue entry of a slot, purged ones apart. -/
def SlotUnit.entryOf (u : SlotUnit) (t : Tag) : Option Entry :=
  u.queue.find? fun e => decide (e.tag = t) && !e.purged

/-- The slot's entry is on the line. -/
def State.slotOnLine (s : State) (t : Tag) : Bool :=
  match s.slots.entryOf t with
  | some e => s.entryOnLine e
  | none => false

/-- The bit times of one millisecond at the rate in use (R51). -/
def Rate.bitsPerMs : Rate → Nat
  | .k125 => 125
  | .k250 => 250
  | .k500 => 500
  | .k1000 => 1000

end Sys2Proof.Machine
end

