-- ==== Sys2Proof/Machine/Ops.lean ====
section
/-! DEFINITION. Machine/Ops.lean: the operations the commands share: events and counters (R186, R189), timers, entering
a step state or a station state (R37, R38, R77), clearing (R24, R160), the queues of the slot unit (R140). -/

namespace Sys2Proof.Machine

/-- A happening that takes place when `enabled` holds; otherwise it does not happen and nothing changes (log 9). -/
def happening (enabled : Bool) (effect : State → State) (s : State) : Host.Outcome State Fault Refusal :=
  .next (if enabled then effect s else s)

/-- The part is powered and out of reset. -/
def State.isOn (s : State) : Bool := decide (s.power = .on)

/-! ### Counters (R186) -/

/-- The counters, in the order of R186. -/
inductive Counter where
  | framesTaken | ownVetoed | arbitrationLosses | vetoesCast | checkFailures | mismatches | staleEvictions
  | catchupsCompleted | attemptsFailed | snapshotsServed | requestsDropped | ignoredEdges
  | takenFrom (n : StationNo)
  deriving DecidableEq, Repr

/-- R186: a counter's place. -/
def Counter.index : Counter → Fin 28
  | .framesTaken => 0
  | .ownVetoed => 1
  | .arbitrationLosses => 2
  | .vetoesCast => 3
  | .checkFailures => 4
  | .mismatches => 5
  | .staleEvictions => 6
  | .catchupsCompleted => 7
  | .attemptsFailed => 8
  | .snapshotsServed => 9
  | .requestsDropped => 10
  | .ignoredEdges => 11
  | .takenFrom n => ⟨12 + n.val, by omega⟩

/-- R186: a counter adds 1, and stops at 65535. -/
def State.bump (s : State) (c : Counter) : State :=
  { s with port := { s.port with counters := s.port.counters.set c.index (satInc s.port.counters[c.index]) } }

/-! ### Events (R188, R189) -/

/-- R189: the count of the newest record goes up by one, to at most 255. -/
def bumpNewest : List Event → List Event
  | [] => []
  | [e] => [{ e with count := some (min ((e.count.getD 0) + 1) 255) }]
  | e :: e' :: rest => e :: bumpNewest (e' :: rest)

/-- R189, R193: an event is appended, by the depth of the queue; the first one starts the idle timer. -/
def Port.append (p : Port) (idleTimeout : Nat) (e : Event) : Port :=
  let n := p.events.length
  if n + 1 < Config.maxEvents then
    { p with
      events := p.events ++ [e]
      idleTimer := if n = 0 ∧ idleTimeout ≠ 0 then .running idleTimeout else p.idleTimer }
  else if n + 1 = Config.maxEvents then { p with events := p.events ++ [{ kind := .overflow, count := some 1 }] }
  else { p with events := bumpNewest p.events }

/-- A block appends an event. -/
def State.emit (s : State) (e : Event) : State := { s with port := s.port.append s.cfg.idleTimeout e }

/-- R76: a STATION_STATE record. -/
def stateEvent (st : StationState) (c : Cause) (seq : Option Seq) : Event :=
  { kind := .stationState, state := some st, cause := some (.cause c), seq := seq }

/-- R141: a slot event. -/
def slotEvent (k : EventKind) (t : Tag) (c : Option Cause) (seq : Option Seq) : Event :=
  { kind := k, tag := some t, cause := c.map .cause, seq := seq }

/-- R141: the cause of a FREED event that a release cause gives. -/
def ReleaseCause.toCause : ReleaseCause → Cause
  | .host => .host
  | .hold => .hold
  | .line => .line
  | .surrender => .surrender

/-! ### Timers -/

/-- The timer runs. -/
def Timer.isRunning : Timer → Bool
  | .running _ => true
  | .stopped => false

/-- The timer runs. -/
def Watch.isRunning : Watch → Bool
  | .running _ => true
  | .stopped | .expired => false

/-- A timer that starts with a period, and stays stopped when the period is 0 (R155, R156). -/
def Timer.startNonzero (period : Nat) : Timer := if period = 0 then .stopped else .running period

/-- R108: an absence timer held expired restarts with the full absence time. -/
def Watch.unexpire (full : Nat) : Watch → Watch
  | .expired => .running full
  | w => w

/-- R101, R108: the station leaves MEMBER or IN_STEP: the beat timer stops, BEAT pending and every evict flag clear. -/
def Presence.quiesce (p : Presence) (full : Nat) : Presence :=
  { beat := .stopped, beatPending := false, absence := Vector.ofFn fun n => p.absence[n].unexpire full }

/-- R104: the absence timer of a station starts or restarts with the full absence time. -/
def Presence.startAbsence (p : Presence) (n : StationNo) (full : Nat) : Presence :=
  { p with absence := p.absence.set n (.running full) }

/-- R106: the absence timer of a station stops, and its evict flag clears. -/
def Presence.stopAbsence (p : Presence) (n : StationNo) : Presence :=
  { p with absence := p.absence.set n .stopped }

/-- R104, R92: an absence timer starts for every member other than this station; the others stop (DEDUCED, log 21). -/
def Presence.watchMembers (p : Presence) (r : Roster) (me : Option StationNo) (full : Nat) : Presence :=
  { p with absence := Vector.ofFn fun n =>
      if r.isMember n && decide (me ≠ some n) then .running full else .stopped }

/-- R105: a frame heard with a good check from a station of the member set restarts its absence timer; a stopped timer
ignores it. -/
def State.heardFrom (s : State) (n : StationNo) : State :=
  if s.roster.isMember n && !s.isMe n && decide (s.pres.absence[n] ≠ .stopped) then
    { s with pres := s.pres.startAbsence n s.cfg.absenceTime }
  else s

/-- R102: an own frame has been taken: a running beat timer reloads and BEAT pending clears. -/
def Presence.ownFrameTaken (p : Presence) (interval : Nat) : Presence :=
  { p with beat := if p.beat.isRunning then .running interval else p.beat, beatPending := false }

/-! ### Step states -/

/-- R32, R48, R49: entry into step state OFF. -/
def Order.toOff (o : Order) : Order :=
  { o with step := .off, expected := 0, rxRun := 0, ownRun := 0, ownRunOf := none }

/-- R37: entry into IN_STEP with this expected sequence number. -/
def Order.toInStep (o : Order) (expected : Seq) : Order :=
  { o with step := .inStep, expected := expected, rxRun := 0, ownRun := 0, ownRunOf := none }

/-- R38: entry into BEHIND. -/
def Order.toBehind (o : Order) : Order :=
  { o with step := .behind, rxRun := 0, ownRun := 0, ownRunOf := none }

/-- R33: the station states in which the order tracker records a taken frame's seq. -/
def StationState.records : StationState → Bool
  | .listening | .founding | .joining | .member | .leaving => true
  | .idle | .detached | .refused | .isolated => false

/-- R33: a taken sequenced frame heard with a good check is recorded. -/
def State.record (s : State) (seq : Seq) : State :=
  if s.mem.state.records then { s with order := { s.order with lastHeard := some seq } } else s

/-- R125: a serve in progress is abandoned, the buffer released and the serve list emptied. -/
def CatchUp.dropServes (c : CatchUp) : CatchUp := { c with serve := none, serveList := [], buffer := none }

/-- R136: the catch-up ends without an install; the serving side too is dropped (R125). -/
def CatchUp.stop (_ : CatchUp) : CatchUp := CatchUp.idle

/-- R116: the step state becomes BEHIND; a station already BEHIND is unchanged (R36). -/
def State.enterBehind (s : State) : State :=
  if s.order.step = .behind then s
  else
    { s with
      order := s.order.toBehind
      pres := s.pres.quiesce s.cfg.absenceTime
      cu :=
        { CatchUp.idle with
          phase := .requesting
          syncreqPending := true
          wait := if s.order.lastHeard = none then .running s.cfg.absenceTime else .stopped } }

/-- R117: a taken frame joins the hold-back queue. -/
def holdBackAppend (q : List Held) (h : Held) : List Held :=
  match q.getLast? with
  | none => [h]
  | some newest =>
    if later h.frame.seq newest.frame.seq then
      (if Config.maxHoldBack ≤ q.length then q.drop 1 else q) ++ [h]
    else [h]

/-- R117, R128: a taken frame heard while BEHIND is held back; a wait timer that ran in REQUESTING for want of a first
taken frame stops. `firstHeard`: the last taken sequence heard was absent before this frame. -/
def State.holdBack (s : State) (h : Held) (firstHeard : Bool) : State :=
  { s with cu :=
      { s.cu with
        holdBack := holdBackAppend s.cu.holdBack h
        wait := if firstHeard && decide (s.cu.phase = .requesting) then .stopped else s.cu.wait } }

/-! ### Send queue (R140) -/

/-- R140: a new entry at the back. -/
def SlotUnit.push (u : SlotUnit) (k : EntryKind) (t : Tag) : SlotUnit :=
  { u with queue := u.queue ++ [{ id := u.nextId, kind := k, tag := t, purged := false }], nextId := u.nextId + 1 }

/-- R140: an entry leaves the queue. -/
def SlotUnit.drop (u : SlotUnit) (id : Nat) : SlotUnit := { u with queue := u.queue.filter fun e => e.id ≠ id }

/-- The unpurged entry of a slot leaves the queue. -/
def SlotUnit.dropEntryOf (u : SlotUnit) (t : Tag) : SlotUnit :=
  { u with queue := u.queue.filter fun e => decide (e.tag ≠ t) || e.purged }

/-- R140: the unpurged entry of a slot is turned into a RELEASE and keeps its place. -/
def SlotUnit.toRelease (u : SlotUnit) (t : Tag) : SlotUnit :=
  { u with queue := u.queue.map fun e => if e.tag = t ∧ e.purged = false then { e with kind := .release } else e }

/-- A slot is changed. -/
def SlotUnit.setSlot (u : SlotUnit) (t : Tag) (x : Slot) : SlotUnit := { u with slots := u.slots.set t x }

/-- The slot of a tag. -/
def State.slot (s : State) (t : Tag) : Slot := s.slots.slots[t]

/-- A slot is changed. -/
def State.setSlot (s : State) (t : Tag) (x : Slot) : State := { s with slots := s.slots.setSlot t x }

/-- The eight tags in order. -/
def tags : List Tag := List.finRange 8

/-- R160: the event of one cleared slot. -/
def State.clearEvent (k : EventKind) (c : Cause) (seq : Option Seq) (s : State) (t : Tag) : State :=
  if (s.slot t).state = .free then s else s.emit (slotEvent k t (some c) seq)

/-- R140, R160: the send queue after a purge: an entry on the line stays until its outcome. -/
def State.purgedQueue (s : State) : List Entry :=
  (s.slots.queue.filter fun e => s.entryOnLine e).map fun e => { e with purged := true }

/-- R160: every slot becomes FREE, one event for each that was not, and the send queue is purged. -/
def State.clearSlots (s : State) (k : EventKind) (c : Cause) (seq : Option Seq) : State :=
  let s1 := tags.foldl (State.clearEvent k c seq) s
  { s1 with slots := { s1.slots with slots := Vector.replicate 8 Slot.empty, queue := s1.purgedQueue } }

/-! ### Station states (R76, R77) -/

/-- R77: entry to LISTENING. What was pending is dropped (DEDUCED, log 21). -/
def State.enterListening (s : State) (c : Cause) (seq : Option Seq) : State :=
  ({ s with
     mem := { s.mem with
       state := .listening
       listen := .running s.cfg.absenceTime
       pendingFound := false, pendingJoin := false, pendingLeave := false }
     order := { s.order.toOff with lastHeard := none }
     table := s.table.clear
     roster := Roster.empty
     pres := Presence.stopped
     cu := s.cu.stop } : State).emit (stateEvent .listening c seq)

/-- R77: entry to JOINING, with a JOIN pending or not (R90). A station that was JOINING already appends no event (R76). -/
def State.enterJoining (s : State) (join : Bool) (c : Cause) (seq : Option Seq) : State :=
  let s1 : State :=
    { s with
      mem := { s.mem with
        state := .joining, listen := .stopped
        pendingFound := false, pendingJoin := join, pendingLeave := false }
      pres := s.pres.quiesce s.cfg.absenceTime }
  if s.mem.state = .joining then s1 else s1.emit (stateEvent .joining c seq)

/-- R77: entry to MEMBER; in step, the beat timer starts (R101). -/
def State.enterMember (s : State) (c : Cause) (seq : Option Seq) : State :=
  ({ s with
     mem := { s.mem with state := .member, pendingFound := false, pendingJoin := false }
     pres := { s.pres with
       beat := if s.order.step = .inStep then .running s.cfg.beatInterval else s.pres.beat } } : State).emit
    (stateEvent .member c seq)

/-- R77: entry to DETACHED, REFUSED or ISOLATED. The slots are cleared beside it (R160). -/
def State.enterOut (s : State) (st : StationState) (c : Cause) (seq : Option Seq) : State :=
  ({ s with
     mem := { s.mem with
       state := st, listen := .stopped
       pendingFound := false, pendingJoin := false, pendingLeave := false }
     order := s.order.toOff
     table := s.table.clear
     roster := Roster.empty
     pres := Presence.stopped
     cu := s.cu.stop } : State).emit (stateEvent st c seq)

/-! ### Failed catch-up attempts (R134, R135) -/

/-- R134, R135: a failed attempt is counted; the third isolates the station. Its LOST events carry no seq (DEDUCED,
log 11). -/
def State.failAttempt (s : State) (c : Cause) : State :=
  let n := s.cu.attempts + 1
  let s1 := (s.emit { kind := .catchupFail, count := some n, cause := some (.cause c) }).bump .attemptsFailed
  if n < Config.maxAttempts then
    { s1 with cu :=
        { s1.cu with
          attempts := n
          snapshot := none
          wait :=
            if s1.cu.phase = .requesting ∧ s1.order.lastHeard = none then .running s1.cfg.absenceTime else .stopped
          vetoRun := 0
          syncreqPending := true
          phase := .requesting } }
  else (s1.enterOut .isolated .catchup s1.order.lastHeard).clearSlots .lost .catchup none

end Sys2Proof.Machine
end

