-- ==== Sys2Proof/Machine/Serve.lean ====
section
/-! DEFINITION. Machine/Serve.lean: the server side of the catch-up unit: designation, the serve list, capture, restart
and the end of a serve (R120 to R124). -/

namespace Sys2Proof.Machine

/-- R122: the replicated state as it stands, captured. -/
def State.capture (s : State) : Capture where
  digest := s.roster.digest
  members := s.roster.word
  inUse := s.table.inUse
  fingerprint := s.fingerprint
  lastTaken := s.roster.lastTakens
  records := s.table.records

/-- R122, R124: a serve for a requester begins, or begins anew, with a fresh capture: its base sequence is the seq of
the last frame applied. -/
def State.beginServe (s : State) (r : StationNo) : State :=
  { s with cu :=
      { s.cu with
        serve := some
          { requester := r, base := s.order.expected - 1, count := s.table.records.length + 1, index := 0 }
        buffer := some s.capture } }

/-- R122: a serve starts when none is in progress and the list is not empty. -/
def State.startNextServe (s : State) : State :=
  match s.cu.serve, s.cu.serveList with
  | none, r :: rest => { s with cu := { s.cu with serveList := rest } }.beginServe r
  | _, _ => s

/-- R121: a SYNCREQ that names this station as server goes to the serve list, by the first case that applies. -/
def State.serveRequest (s : State) (r : StationNo) : State :=
  if s.cu.serve.map Serve.requester = some r then s.beginServe r
  else if s.cu.serveList.contains r then s.startNextServe
  else if Config.maxServeList ≤ s.cu.serveList.length then (s.bump .requestsDropped).startNextServe
  else { s with cu := { s.cu with serveList := s.cu.serveList ++ [r] } }.startNextServe

/-- R120: a taken SYNCREQ applied live names the server; when that is this station and it is IN_STEP, it serves. -/
def State.designate (s : State) (r : StationNo) : State :=
  match s.roster.server r with
  | some n => if s.isMe n && decide (s.order.step = .inStep) then s.serveRequest r else s
  | none => s

/-- R123: the part on the line has been SENT: the next part, or the end of the serve and the next request's. -/
def State.partSent (s : State) : State :=
  match s.cu.serve with
  | none => s
  | some v =>
    if v.index + 1 < v.count then { s with cu := { s.cu with serve := some { v with index := v.index + 1 } } }
    else (State.bump { s with cu := { s.cu with serve := none, buffer := none } } .snapshotsServed).startNextServe

end Sys2Proof.Machine
end

