-- ==== Sys2Proof/Machine/Operands.lean ====
section
/-! DEFINITION. Machine/Operands.lean: the bytes of a transaction and of a request body as commands (R176, R201), the
checks on their fields (R142, R163, R180), and the codes of responses (R202). -/

namespace Sys2Proof.Machine

/-- R179, R202: the response codes. -/
inductive RespCode where
  | ok | badArg | state | noSlot | noTag | badForm | unknown
  deriving DecidableEq, Repr

/-- R202. -/
def RespCode.code : RespCode → Byte
  | .ok => 0x00#8
  | .badArg => 0x01#8
  | .state => 0x02#8
  | .noSlot => 0x03#8
  | .noTag => 0x04#8
  | .badForm => 0x05#8
  | .unknown => 0x06#8

/-- R202: a response: its length, the request code answered, the response code, the data. -/
def responseBytes (request : Byte) (code : RespCode) (data : List Byte) : List Byte :=
  [byteOf (3 + data.length), request, code.code] ++ data

/-- R201: the body length of the request a code names, FETCH apart (any length). `none`: the code names no request, or
is FETCH's. -/
def bodyLength (code : Byte) : Option Nat :=
  match code.toNat with
  | 0x00 => some 0
  | 0x10 => some 34
  | 0x11 => some 0
  | 0x12 => some 0
  | 0x20 => some 7
  | 0x21 => some 1
  | 0x22 => some 1
  | 0x23 => some 0
  | 0x30 => some 0
  | 0x31 => some 0
  | 0x40 => some 0
  | 0x41 => some 3
  | 0x42 => some 1
  | 0x43 => some 1
  | 0x44 => some 0
  | _ => none

/-- R176: a transaction of these whole bytes is well-formed: SSN did not rise inside a byte, the byte count is 2 plus the
declared body length, and that is the named request's body length. -/
def transactionWellFormed (bytes : List Byte) (cut : Bool) : Bool :=
  match bytes with
  | code :: len :: body =>
    !cut && decide (body.length = len.toNat) &&
      (match bodyLength code with
       | some n => decide (len.toNat = n)
       | none => true)
  | _ => false

/-- The byte at an offset of a body. -/
def byteAt (body : List Byte) (i : Nat) : Byte := (body[i]?).getD 0

/-- The 16-bit field at an offset of a body (R196). -/
def halfAt (body : List Byte) (i : Nat) : Half := halfOf (byteAt body i) (byteAt body (i + 1))

/-- R201: the SETUP body's layout. -/
def setupBodyOf (body : List Byte) : SetupBody where
  zoneCount := byteAt body 0
  poolCapacity := halfAt body 1
  beatInterval := halfAt body 3
  absenceLimit := byteAt body 5
  hostCheckPeriod := halfAt body 6
  triggerLevel := byteAt body 8
  idleTimeout := byteAt body 9
  lines := Vector.ofFn fun n =>
    { mode := byteAt body (10 + 3 * n.val)
      zone := byteAt body (11 + 3 * n.val)
      polarity := byteAt body (12 + 3 * n.val) }

/-- R201: the processing that a taken request asks for. -/
def commandOf (r : Request) : Instr :=
  match r.code.toNat with
  | 0x10 => .setup (setupBodyOf r.body)
  | 0x11 => .start
  | 0x12 => .restart
  | 0x20 => .ask (byteAt r.body 0) (byteAt r.body 1) (byteAt r.body 2) (halfAt r.body 3) (halfAt r.body 5)
  | 0x21 => .free (byteAt r.body 0)
  | 0x22 => .cancel (byteAt r.body 0)
  | 0x23 => .surrender
  | 0x30 => .depart
  | 0x31 => .rejoin
  | 0x40 => .status
  | 0x41 => .view (byteAt r.body 0) (byteAt r.body 1) (byteAt r.body 2)
  | 0x42 => .read (byteAt r.body 0)
  | 0x43 => .take (byteAt r.body 0)
  | 0x44 => .tally
  | _ => .unknown r.code

/-- R201: the SETUP body's bytes. -/
def setupBytes (b : SetupBody) : List Byte :=
  [b.zoneCount] ++ halfBytes b.poolCapacity ++ halfBytes b.beatInterval ++ [b.absenceLimit] ++
    halfBytes b.hostCheckPeriod ++ [b.triggerLevel, b.idleTimeout] ++
    b.lines.toList.flatMap fun l => [l.mode, l.zone, l.polarity]

/-- R201: the request whose processing a command is: its code and its body's bytes. -/
def requestOf : Instr → Option Request
  | .setup b => some { code := 0x10#8, body := setupBytes b }
  | .start => some { code := 0x11#8, body := [] }
  | .restart => some { code := 0x12#8, body := [] }
  | .ask flags lo hi units hold =>
    some { code := 0x20#8, body := [flags, lo, hi] ++ halfBytes units ++ halfBytes hold }
  | .free tag => some { code := 0x21#8, body := [tag] }
  | .cancel tag => some { code := 0x22#8, body := [tag] }
  | .surrender => some { code := 0x23#8, body := [] }
  | .depart => some { code := 0x30#8, body := [] }
  | .rejoin => some { code := 0x31#8, body := [] }
  | .status => some { code := 0x40#8, body := [] }
  | .view code index auto => some { code := 0x41#8, body := [code, index, auto] }
  | .read count => some { code := 0x42#8, body := [count] }
  | .take count => some { code := 0x43#8, body := [count] }
  | .tally => some { code := 0x44#8, body := [] }
  | .unknown code => some { code := code, body := [] }
  | .powerOn .. | .resetPin .. | .transactionTake .. | .statusRead .. | .nop | .fetch .. | .lineSettled .. | .lineFrameStart ..
  | .attemptStart .. | .attemptLost .. | .attemptFault .. | .frameBroken .. | .frameEnd .. | .frameOutcome ..
  | .ownFrameOutcome .. | .snapSent .. | .listenTimerExpiry | .beatTimerExpiry | .absenceTimerExpiry ..
  | .catchupWaitExpiry | .holdTimerExpiry .. | .hostCheckExpiry | .idleTimerExpiry | .lineStuck .. | .lineClear ..
  | .releaseInPinChange .. | .qualificationExpiry .. | .releaseEdge .. | .ssnFallingEdge | .resetPinAsserted
  | .powerLoss => none

/-- R163, R201: one zone line of a SETUP passes, against the zone count of the same SETUP. A polarity code that names no
polarity is refused in every mode, the one of an OFF line too (DEDUCED, log 10). -/
def lineBodyOk (zoneCount : Nat) (l : LineBody) : Bool :=
  match l.mode.toNat with
  | 0 | 2 => decide (l.polarity.toNat ≤ 1)
  | 1 | 3 => decide (l.zone.toNat < zoneCount) && decide (l.polarity.toNat ≤ 1)
  | _ => false

/-- R180: every field of a SETUP is in its range. -/
def setupOk (b : SetupBody) : Bool :=
  decide (1 ≤ b.zoneCount.toNat) && decide (b.zoneCount.toNat ≤ 32) && decide (b.poolCapacity.toNat ≤ 1023) &&
    decide (10 ≤ b.beatInterval.toNat) && decide (b.beatInterval.toNat ≤ 1000) &&
    decide (2 ≤ b.absenceLimit.toNat) && decide (b.absenceLimit.toNat ≤ 15) &&
    decide (b.hostCheckPeriod.toNat = 0 ∨ 10 ≤ b.hostCheckPeriod.toNat ∧ b.hostCheckPeriod.toNat ≤ 10000) &&
    decide (1 ≤ b.triggerLevel.toNat) && decide (b.triggerLevel.toNat ≤ 32) &&
    b.lines.toList.all (lineBodyOk b.zoneCount.toNat)

/-- R163: a zone line's configuration. A field that the mode does not use takes its default (DESIGN
CHOICE, log 24). -/
def lineCfgOf (l : LineBody) : LineCfg :=
  let pol : Polarity := if l.polarity = 1 then .low else .high
  match l.mode.toNat with
  | 1 => { mode := .grantOut, zone := l.zone.toNat, polarity := pol }
  | 2 => { mode := .memberOut, zone := 0, polarity := pol }
  | 3 => { mode := .releaseIn, zone := l.zone.toNat, polarity := pol }
  | _ => { mode := .off, zone := 0, polarity := .high }

/-- R180: the configuration that an accepted SETUP sets. -/
def cfgOf (b : SetupBody) : Cfg where
  zoneCount := b.zoneCount.toNat
  poolCapacity := b.poolCapacity.toNat
  beatInterval := b.beatInterval.toNat
  absenceLimit := b.absenceLimit.toNat
  hostCheckPeriod := b.hostCheckPeriod.toNat
  triggerLevel := b.triggerLevel.toNat
  idleTimeout := b.idleTimeout.toNat
  lines := Vector.ofFn fun n => lineCfgOf b.lines[n]

/-- R201: the zones that an ASK or CLAIM names: absent when the zones-present flag is clear. -/
def askZones (flags lo hi : Byte) : Option Range :=
  if flags.toNat.testBit 0 then some { lo := lo.toNat, hi := hi.toNat } else none

/-- R142: the second check of ASK. -/
def askOk (cfg : Cfg) (zones : Option Range) (units : Nat) : Bool :=
  (match zones with
   | some g => decide (g.lo ≤ g.hi) && decide (g.hi < cfg.zoneCount)
   | none => decide (0 < units)) &&
    decide (units ≤ cfg.poolCapacity)

end Sys2Proof.Machine
end

