-- ==== Sys2Proof/Machine/Slots.lean ====
section
/-! DEFINITION. Machine/Slots.lean: the slot unit: giving claims up (R143 to R145), what the outcomes of own frames and
the application reports do to the slots (R147 to R154), re-validation at install (R158). -/

namespace Sys2Proof.Machine

/-! ### Slot values -/

/-- The slot enters HELD: its hold timer starts (R155). -/
def Slot.toHeld (x : Slot) (granted : Option Seq) : Slot :=
  { x with state := .held, grantedAt := granted, mark := .none, holdTimer := Timer.startNonzero x.holdLimit }

/-- The slot enters RELEASING, or stays in it: a hold timer stops (R155). -/
def Slot.toReleasing (x : Slot) (m : Mark) : Slot :=
  { x with state := .releasing, mark := m, holdTimer := .stopped }

/-- A slot becomes FREE and an event says why. -/
def State.freeWith (s : State) (t : Tag) (k : EventKind) (c : Cause) (seq : Option Seq) : State :=
  (s.setSlot t Slot.empty).emit (slotEvent k t (some c) seq)

/-- An entry for the slot is appended to the send queue. -/
def State.push (s : State) (k : EntryKind) (t : Tag) : State := { s with slots := s.slots.push k t }

/-- The slot's entry leaves the send queue. -/
def State.dropEntryOf (s : State) (t : Tag) : State := { s with slots := s.slots.dropEntryOf t }

/-- The slot's entry becomes a RELEASE in place. -/
def State.toRelease (s : State) (t : Tag) : State := { s with slots := s.slots.toRelease t }

/-- R141: the cause of the FREED event of a slot whose release was asked for. -/
def Slot.freedCause (x : Slot) : Cause := ((x.cause.map ReleaseCause.toCause).getD .host)

/-! ### FREE, CANCEL, surrender (R143 to R145) -/

/-- R143: FREE acts on a slot, with the cause it was asked by. -/
def State.freeSlot (s : State) (t : Tag) (c : ReleaseCause) : State × RespCode :=
  let x := s.slot t
  match x.state with
  | .free => (s, .noTag)
  | .pending =>
    if s.slotOnLine t then
      if x.mark = .releaseAfter then (s, .state)
      else (s.setSlot t { x with mark := .releaseAfter, cause := some c }, .ok)
    else ((s.dropEntryOf t).freeWith t .freed .notSent none, .ok)
  | .waiting => ((s.setSlot t { x.toReleasing .none with cause := some c }).push .release t, .ok)
  | .held =>
    if (s.slots.entryOf t).isSome then (s.setSlot t { x.toReleasing .releaseAfter with cause := some c }, .ok)
    else ((s.setSlot t { x.toReleasing .none with cause := some c }).push .release t, .ok)
  | .cancelling =>
    if s.slotOnLine t then
      if x.mark = .releaseAfter then (s, .state)
      else (s.setSlot t { x with mark := .releaseAfter, cause := some c }, .ok)
    else ((s.setSlot t { x.toReleasing .none with cause := some c }).toRelease t, .ok)
  | .releasing => (s, .state)

/-- R144: CANCEL acts on a slot. -/
def State.cancelSlot (s : State) (t : Tag) : State × RespCode :=
  let x := s.slot t
  match x.state with
  | .free => (s, .noTag)
  | .pending =>
    if s.slotOnLine t then
      if x.mark = .none then (s.setSlot t { x with mark := .cancelAfter }, .ok) else (s, .state)
    else ((s.dropEntryOf t).freeWith t .withdrawn .notSent none, .ok)
  | .waiting => ((s.setSlot t { x with state := .cancelling }).push .withdraw t, .ok)
  | .held | .cancelling | .releasing => (s, .state)

/-- R145: FREE acts without a request: where it would answer STATE or NO_TAG the slot is left as it is. -/
def State.giveUp (c : ReleaseCause) (s : State) (t : Tag) : State := (s.freeSlot t c).1

/-- R145: a surrender: FREE acts on every slot in tag order. -/
def State.surrender (s : State) : State := tags.foldl (State.giveUp .surrender) s

/-- R145: the own slot in state HELD whose range covers the zone. -/
def State.heldSlotOf (s : State) (z : Nat) : Option Tag :=
  tags.find? fun t =>
    decide ((s.slot t).state = .held) &&
      (match (s.slot t).zones with
       | some g => g.covers z
       | none => false)

/-- R145, R169: a release edge for a zone reaches the slot unit. -/
def State.releaseZone (s : State) (z : Nat) : State :=
  match s.heldSlotOf z with
  | some t => s.giveUp .line t
  | none => s.bump .ignoredEdges

/-! ### Own frames that were not taken (R150, R152, R153) -/

/-- R150: an own CLAIM ended VETOED, FAULT or LOST. -/
def State.claimUnsent (s : State) (t : Tag) : State :=
  match (s.slot t).mark with
  | .none => s
  | .releaseAfter => (s.dropEntryOf t).freeWith t .freed .notSent none
  | .cancelAfter => (s.dropEntryOf t).freeWith t .withdrawn .notSent none

/-- R153, last column: an own WITHDRAW ended VETOED, FAULT or LOST. -/
def State.withdrawUnsent (s : State) (t : Tag) : State :=
  let x := s.slot t
  match x.state with
  | .held => ((s.dropEntryOf t).setSlot t { x with mark := .none }).emit (slotEvent .tooLate t none none)
  | .cancelling | .releasing =>
    if x.mark = .releaseAfter then (s.setSlot t (x.toReleasing .none)).toRelease t
    else s
  | .free | .pending | .waiting => s

/-- R66, R140, R150, R152, R153: the outcome VETOED, FAULT or LOST reaches a send-queue entry. A purged entry leaves the
queue and changes no slot; a RELEASE stays. -/
def State.entryUnsent (s : State) (id : Nat) : State :=
  match s.slots.queue.find? (fun e => e.id = id) with
  | none => s
  | some e =>
    if e.purged then { s with slots := s.slots.drop id }
    else
      match e.kind with
      | .claim => s.claimUnsent e.tag
      | .release => s
      | .withdraw => s.withdrawUnsent e.tag

/-! ### Own frames that were taken (R148, R149, R152, R153) -/

/-- R9: the reason as the REFUSED event carries it (R203). -/
def RefuseReason.toCause : RefuseReason → Cause
  | .duplicate => .duplicate
  | .range => .range
  | .full => .full

/-- R148, R149: the own CLAIM of a slot has been taken. -/
def State.ownClaimTaken (s : State) (t : Tag) (out : ClaimOutcome) (granted : Bool) (seq : Seq) : State :=
  let x := s.slot t
  let admitted := slotEvent .admitted t none (some seq)
  let grant := slotEvent .granted t none (some seq)
  match out with
  | .refused r => s.freeWith t .refused r.toCause (some seq)
  | .ignored => s.setSlot t { x with mark := .none }
  | .admitted =>
    let y := { x with admittedAt := some seq }
    match x.mark, granted with
    | .none, false => (s.setSlot t { y with state := .waiting }).emit admitted
    | .none, true => ((s.setSlot t (y.toHeld (some seq))).emit admitted).emit grant
    | .releaseAfter, false => ((s.setSlot t (y.toReleasing .none)).emit admitted).push .release t
    | .releaseAfter, true =>
      (((s.setSlot t { y.toReleasing .none with grantedAt := some seq }).emit admitted).emit grant).push .release t
    | .cancelAfter, false =>
      ((s.setSlot t { y with state := .cancelling, mark := .none }).emit admitted).push .withdraw t
    | .cancelAfter, true =>
      (((s.setSlot t (y.toHeld (some seq))).emit admitted).emit grant).emit (slotEvent .tooLate t none (some seq))

/-- R152: the own RELEASE of a slot has been taken, REMOVED or ABSENT. -/
def State.ownReleaseTaken (s : State) (t : Tag) (seq : Seq) : State :=
  s.freeWith t .freed (s.slot t).freedCause (some seq)

/-- R153: the own WITHDRAW of a slot has been taken. `granted` is the granted-at of the slot's record when STILL_HELD. -/
def State.ownWithdrawTaken (s : State) (t : Tag) (out : TagOutcome) (granted : Option Seq) (seq : Seq) : State :=
  let x := s.slot t
  let tooLate := slotEvent .tooLate t none (some seq)
  match out with
  | .removed | .absent =>
    match x.state with
    | .cancelling =>
      if x.mark = .releaseAfter then s.freeWith t .freed x.freedCause (some seq)
      else s.freeWith t .withdrawn .host (some seq)
    | .releasing => s.freeWith t .freed x.freedCause (some seq)
    | .held => s.freeWith t .withdrawn .gone (some seq)
    | .free | .pending | .waiting => s
  | .stillHeld =>
    match x.state with
    | .cancelling =>
      if x.mark = .releaseAfter then
        (((s.setSlot t { x.toReleasing .none with grantedAt := granted }).emit
          (slotEvent .granted t none granted)).emit tooLate).push .release t
      else ((s.setSlot t (x.toHeld granted)).emit (slotEvent .granted t none granted)).emit tooLate
    | .releasing => ((s.setSlot t (x.toReleasing .none)).emit tooLate).push .release t
    | .held => (s.setSlot t { x with mark := .none }).emit tooLate
    | .free | .pending | .waiting => s

/-! ### Reports about other frames (R151, R154) -/

/-- R151: a frame other than the own CLAIM granted the record of the slot's tag. -/
def State.ownGrant (s : State) (t : Tag) (seq : Seq) : State :=
  let x := s.slot t
  let grant := slotEvent .granted t none (some seq)
  match x.state with
  | .waiting => (s.setSlot t (x.toHeld (some seq))).emit grant
  | .cancelling =>
    if s.slotOnLine t then
      if x.mark = .releaseAfter then
        (s.setSlot t { x.toReleasing .releaseAfter with grantedAt := some seq }).emit grant
      else (s.setSlot t (x.toHeld (some seq))).emit grant
    else
      (((s.dropEntryOf t).setSlot t (x.toHeld (some seq))).emit grant).emit (slotEvent .tooLate t none (some seq))
  | .releasing => s.setSlot t { x with grantedAt := some seq }
  | .free | .pending | .held => s

/-- R154: a frame that is not the own RELEASE or WITHDRAW for it removed the record of the slot's tag. -/
def State.ownRemoved (s : State) (t : Tag) (seq : Seq) : State :=
  match (s.slot t).state with
  | .waiting | .held => s.freeWith t .lost .duplicate (some seq)
  | .cancelling => if s.slotOnLine t then s else (s.dropEntryOf t).freeWith t .withdrawn .gone none
  | .releasing => if s.slotOnLine t then s else (s.dropEntryOf t).freeWith t .freed .gone none
  | .free | .pending => s

/-! ### The report as a whole (R147) -/

/-- R147, step 1: the outcome of the station's own CLAIM, RELEASE or WITHDRAW. `entry` is the slot whose unpurged entry
the frame was. -/
def State.settleOwn (s : State) (f : Frame) (rep : Report) (entry : Option Tag) : State :=
  match entry with
  | none => s
  | some t =>
    match f.body with
    | .claim .. =>
      s.ownClaimTaken t (rep.claim.getD .ignored) (rep.grants.any fun g => s.isMe g.1 && decide (g.2 = t)) f.seq
    | .release _ => s.ownReleaseTaken t f.seq
    | .withdraw _ =>
      s.ownWithdrawTaken t (rep.tag.getD .absent) ((s.table.find f.sender t.val).bind Record.grantedAt) f.seq
    | _ => s

/-- R147, step 2: the removed records of this station, but for the one its own RELEASE or WITHDRAW removed. -/
def State.settleRemoved (f : Frame) (own : Bool) (s : State) (r : Record) : State :=
  if s.isMe r.owner && !(own && decide (f.body.kind = .release ∨ f.body.kind = .withdraw)) then s.ownRemoved r.tag f.seq
  else s

/-- R147, step 3: the grants of this station's records, but for that of its own CLAIM's record. -/
def State.settleGrant (f : Frame) (own : Bool) (s : State) (g : StationNo × Tag) : State :=
  if s.isMe g.1 &&
      !(own && (match f.body with
        | .claim tag .. => decide (tag.toNat = g.2.val)
        | _ => false)) then s.ownGrant g.2 f.seq
  else s

/-- R147: the slot unit takes an application report, in report order. -/
def State.settleReport (s : State) (f : Frame) (own : Bool) (entry : Option Tag) (rep : Report) : State :=
  rep.grants.foldl (State.settleGrant f own)
    (rep.removed.foldl (State.settleRemoved f own) (if own then s.settleOwn f rep entry else s))

/-! ### Re-validation (R158) -/

/-- R158: one slot against the record of its tag. `base` is the base sequence of the snapshot. The events' seqs: DEDUCED,
log 20. -/
def State.revalidateSlot (base : Seq) (s : State) (t : Tag) : State :=
  let x := s.slot t
  let rec? := s.mem.number.bind fun me => s.table.find me t.val
  match x.state, rec? with
  | .free, _ => s
  | .pending, _ => s
  | .waiting, none => s.freeWith t .lost .resync (some base)
  | .held, none => s.freeWith t .lost .resync (some base)
  | .cancelling, none => (s.dropEntryOf t).freeWith t .withdrawn .gone none
  | .releasing, none => (s.dropEntryOf t).freeWith t .freed .gone none
  | .waiting, some r =>
    match r.state with
    | .waiting => s.setSlot t { x with admittedAt := some r.admittedAt }
    | .held =>
      (s.setSlot t ({ x with admittedAt := some r.admittedAt }.toHeld r.grantedAt)).emit
        (slotEvent .granted t none r.grantedAt)
  | .held, some r =>
    match r.state with
    | .held => s.setSlot t { x with admittedAt := some r.admittedAt, grantedAt := r.grantedAt }
    | .waiting =>
      (s.setSlot t { x with
          state := .waiting, admittedAt := some r.admittedAt, grantedAt := none, holdTimer := .stopped }).emit
        (slotEvent .admitted t none (some r.admittedAt))
  | .cancelling, some r =>
    match r.state with
    | .waiting => s
    | .held =>
      (((s.dropEntryOf t).setSlot t (x.toHeld r.grantedAt)).emit (slotEvent .granted t none r.grantedAt)).emit
        (slotEvent .tooLate t none none)
  | .releasing, some r =>
    match r.state with
    | .waiting => s
    | .held => s.setSlot t { x with grantedAt := r.grantedAt }

/-- R158, R159: every slot, in tag order. -/
def State.revalidate (s : State) (base : Seq) : State := tags.foldl (State.revalidateSlot base) s

end Sys2Proof.Machine
end

