-- ==== Sys2Proof/Machine/Apply.lean ====
section
/-! DEFINITION. Machine/Apply.lean: the application of a taken frame, live or from the hold-back queue (R45, R46), with
its membership effect (R79, R91, R92, R95, R96, R98, R99, R110 to R112). -/

namespace Sys2Proof.Machine

/-- Where the membership step of an application leaves the station (R92, R95, R96, R98, R99, R112). -/
inductive Move where
  /-- the station state stays -/
  | stay
  /-- the own JOIN is accepted (R92) -/
  | becomeMember
  /-- a MEMBER loses its place and goes JOINING (R96, R112) -/
  | loseMembership (c : Cause)
  /-- the station goes to DETACHED, REFUSED or ISOLATED -/
  | leaveGroup (st : StationState) (c : Cause)
  /-- the group dissolves at this station (R98) -/
  | dissolve
  deriving DecidableEq, Repr

/-! ### The roster's part -/

/-- R79: the last-taken of a sender that is a member becomes the frame's seq. -/
def Roster.recordTaken (r : Roster) (x : StationNo) (seq : Seq) : Roster :=
  match r.members[x] with
  | some m => { r with members := r.members.set x (some { m with lastTaken := seq }) }
  | none => r

/-- R91: a station is added to the member set, or renewed in it. -/
def Roster.add (r : Roster) (x : StationNo) (seq : Seq) : Roster :=
  { r with members := r.members.set x (some { joinedAt := seq, lastTaken := seq }) }

/-- A station leaves the member set. -/
def Roster.removeMember (r : Roster) (x : StationNo) : Roster := { r with members := r.members.set x none }

/-- A station leaves the member set, and its absence timer stops (R106). -/
def State.removePeer (s : State) (x : StationNo) : State :=
  { s with roster := s.roster.removeMember x, pres := s.pres.stopAbsence x }

/-- R91, R104: a station is added or renewed; its absence timer starts unless it is this station. -/
def State.admitPeer (s : State) (x : StationNo) (seq : Seq) : State :=
  { s with
    roster := s.roster.add x seq
    pres := if s.isMe x then s.pres else s.pres.startAbsence x s.cfg.absenceTime }

/-- An event about a peer (R91, R95, R110). -/
def peerEvent (k : EventKind) (x : StationNo) (c : Option Cause) (seq : Seq) : Event :=
  { kind := k, station := some x, cause := c.map .cause, seq := some seq }

/-! ### Membership effects, kind by kind -/

/-- R96: this station's number has left its member set by a frame other than its own LEAVE. -/
def ownLoss (st : StationState) (c : Cause) : Move :=
  match st with
  | .member => .loseMembership c
  | .leaving => .leaveGroup .detached c
  | .idle | .listening | .founding | .joining | .detached | .refused | .isolated => .stay

/-- R91, R92, R99: the effect of a taken JOIN. -/
def State.applyJoin (s : State) (j : StationNo) (digest : Half) (own : Bool) (seq : Seq) : State × Move :=
  let was := s.roster.isMember j
  let accepted := decide (s.roster.digest = some digest)
  let s1 := if accepted then s.admitPeer j seq else if was then s.removePeer j else s
  if s.isMe j then
    (s1, if own then (if accepted then .becomeMember else .leaveGroup .refused .config)
         else .leaveGroup .isolated .duplicate)
  else
    (s1.emit
      (if accepted then peerEvent .peerIn j (some (if was then .renewed else .new)) seq
       else peerEvent .peerRefused j none seq), .stay)

/-- R95, R96: the effect of a taken LEAVE. One that bears this station's number and that it did not send appends no
PEER_OUT, as R95 gives PEER_OUT to the stations other than the sender (DESIGN CHOICE, log 28). -/
def State.applyLeave (s : State) (x : StationNo) (own : Bool) (seq : Seq) : State × Move :=
  let was := s.roster.isMember x
  let s1 := if was then s.removePeer x else s
  if s.isMe x then
    (s1, if own then .leaveGroup .detached .left else if was then ownLoss s.mem.state .removed else .stay)
  else (if was then s1.emit (peerEvent .peerOut x (some .left) seq) else s1, .stay)

/-- R110, R111: the effect of a taken EVICT. -/
def State.applyEvict (s : State) (y : StationNo) (target : Byte) (seq : Seq) : State × Move :=
  if h : target.toNat < 16 then
    let x : StationNo := ⟨target.toNat, h⟩
    if s.roster.isMember x && decide (x ≠ y) then
      let s1 := s.removePeer x
      let out := peerEvent .peerOut x (some .evicted) seq
      if s.isMe x then
        match ownLoss s.mem.state .evicted with
        | .stay => (s1.emit out, .stay)
        | m => (s1, m)
      else (s1.emit out, .stay)
    else (s.bump .staleEvictions, .stay)
  else (s.bump .staleEvictions, .stay)

/-- R45 step 4, by the frame's kind. -/
def State.applyKind (s : State) (f : Frame) (own : Bool) : State × Move :=
  match f.body with
  | .join d => s.applyJoin f.sender d own f.seq
  | .leave => s.applyLeave f.sender own f.seq
  | .evict target => s.applyEvict f.sender target f.seq
  | .claim .. | .release _ | .withdraw _ | .beat _ | .syncreq | .found _ | .snapHeader .. | .snapRecord .. => (s, .stay)

/-- R41, R99: the frame bears this station's number and this station did not send it. -/
def State.isForeign (s : State) (f : Frame) (own : Bool) : Bool := s.isMe f.sender && !own

/-- R99: the DUPLICATE event of a foreign use of the own number. -/
def duplicateEvent (f : Frame) : Event :=
  { kind := .duplicate, seq := some f.seq, cause := some (.kind f.body.kind) }

/-- R98: the group dissolves at the station that applies this frame, tested after the membership effect. -/
def Roster.dissolvedBy (r : Roster) (f : Frame) : Bool :=
  r.isVoid || (decide (f.body.kind = .syncreq) && (r.server f.sender).isNone)

/-- R98: dissolution governs a stay and a loss of membership, and gives way to DETACHED, REFUSED and ISOLATED. -/
def Move.withDissolution (m : Move) (dissolved : Bool) : Move :=
  match m with
  | .leaveGroup st c => .leaveGroup st c
  | .dissolve => .dissolve
  | .stay | .becomeMember | .loseMembership _ => if dissolved then .dissolve else m

/-- R45 step 4: the membership effect whole, with its events but for the station's own move. -/
def State.membershipStep (s : State) (f : Frame) (own : Bool) : State × Move :=
  let s1 := { s with roster := s.roster.recordTaken f.sender f.seq }
  let (s2, m) := s1.applyKind f own
  let s3 := if s.isForeign f own then s2.emit (duplicateEvent f) else s2
  (s3, m.withDissolution (s3.roster.dissolvedBy f))

/-- R76, R77, R92, R96, R98, R112: the move is made, with its STATION_STATE event. -/
def State.makeMove (s : State) (m : Move) (seq : Seq) : State :=
  match m with
  | .stay => s
  | .becomeMember =>
    let s1 := { s with pres := s.pres.watchMembers s.roster s.mem.number s.cfg.absenceTime }
    s1.enterMember .joined (some seq)
  | .loseMembership c =>
    { s with cu := s.cu.dropServes }.enterJoining true c (some seq)
  | .leaveGroup st c => s.enterOut st c (some seq)
  | .dissolve => s.enterListening .dissolved (some seq)

/-- R45 step 6, R147, R160: the slots are settled from the report, or cleared by the move. -/
def State.settleSlots (s : State) (m : Move) (f : Frame) (own : Bool) (entry : Option Tag) (rep : Report) : State :=
  match m with
  | .stay | .becomeMember => s.settleReport f own entry rep
  | .loseMembership c => s.clearSlots .lost c (some f.seq)
  | .leaveGroup st c =>
    s.clearSlots (if st = .detached ∧ c = .left then .freed else .lost) c (some f.seq)
  | .dissolve => s.clearSlots .lost .dissolved (some f.seq)

/-- R50: a BEAT's fingerprint against the one kept from before its effect. -/
def State.compareFingerprint (s : State) (f : Frame) (own : Bool) (carried kept : Half) : State :=
  if carried = kept then s
  else
    let s1 := (s.emit { kind := .mismatch, station := some f.sender, seq := some f.seq }).bump .mismatches
    if s1.roster.reference = some f.sender ∧ s1.isForeign f own = false then s1.enterBehind else s1

/-- R45 step 7, live only (R46): server designation and the comparison of R50. -/
def State.lastStep (s : State) (f : Frame) (own : Bool) (kept : Half) : State :=
  match f.body with
  | .syncreq => s.designate f.sender
  | .beat fp => s.compareFingerprint f own fp kept
  | .claim .. | .release _ | .withdraw _ | .evict _ | .leave | .join _ | .found _ | .snapHeader .. | .snapRecord .. => s

/-- R45: the application of a taken frame. `live`: not from the hold-back queue (R46). `own`: this station sent it.
`entry`: the slot whose unpurged send-queue entry it was. A held-back frame too is recorded as heard (DEDUCED, log 22). -/
def State.applyFrame (s : State) (live : Bool) (own : Bool) (entry : Option Tag) (f : Frame) : State :=
  let s1 := { s with order := { s.order with expected := f.seq + 1, lastHeard := some f.seq } }
  let kept := s.fingerprint
  let (table, rep) := s1.table.apply s1.cfg s1.roster.isMember f
  let (s2, m) := { s1 with table := table }.membershipStep f own
  let s3 := s2.makeMove m f.seq
  let s4 := if own then { s3 with pres := s3.pres.ownFrameTaken s3.cfg.beatInterval } else s3
  let s5 := s4.settleSlots m f own entry rep
  if live then s5.lastStep f own kept else s5

end Sys2Proof.Machine
end

