-- ==== Sys2Proof/Machine/Install.lean ====
section
/-! DEFINITION. Machine/Install.lean: the requester side of the catch-up unit: SNAP parts received (R126, R127), the
install's checks (R129, R130), the install (R131, R132) and its settlement (R93). -/

namespace Sys2Proof.Machine

/-! ### The checks (R129, R130) -/

/-- The queue holds a frame with each of the `n` sequence numbers after `base`. -/
def holdsRun (q : List Held) (base : Seq) : Nat → Bool
  | 0 => true
  | n + 1 => (q.any fun h => decide (h.frame.seq = base + BitVec.ofNat 16 (n + 1))) && holdsRun q base n

/-- R130: the run check, with L the last taken sequence heard. -/
def runCheck (q : List Held) (base : Seq) (lastHeard : Option Seq) : Bool :=
  match lastHeard with
  | none => true
  | some l =>
    if l = base ∨ later base l then true
    else if opposite base l then false
    else holdsRun q base (l - base).toNat

/-! ### The install (R131, R132) -/

/-- R79, R131: the roster of a snapshot header: the members it lists, in increasing order, with joined-at equal to
last-taken. -/
def membersOfHeader (members : Half) (lastTaken : List Seq) : Vector (Option Member) 16 :=
  Vector.ofFn fun n =>
    if members.toNat.testBit n.val then
      let at? := lastTaken[((List.range n.val).filter fun k => members.toNat.testBit k).length]?
      some { joinedAt := at?.getD 0, lastTaken := at?.getD 0 }
    else none

/-- R131 steps 1 to 3: table and roster replaced, IN_STEP, the presence timers. -/
def State.replaceReplicated (s : State) (sn : Snapshot) (t : Table) : State :=
  let roster : Roster := { members := membersOfHeader sn.members sn.lastTaken, digest := some sn.digest }
  { s with
    table := t
    roster := roster
    order := s.order.toInStep (sn.base + 1)
    pres := s.pres.watchMembers roster s.mem.number s.cfg.absenceTime }

/-- R46: a held-back frame is applied while the station is IN_STEP; otherwise it is discarded. -/
def State.applyHeld (s : State) (h : Held) : State :=
  if s.order.step = .inStep then s.applyFrame false h.own none h.frame else s

/-- R131 step 4: the hold-back entries that lie after the base. -/
def heldAfter (q : List Held) (base : Seq) : List Held :=
  q.filter fun h => !(decide (h.frame.seq = base) || earlier h.frame.seq base)

/-- R131 steps 5 and 6. -/
def State.closeCatchUp (s : State) : State :=
  let s1 :=
    { s with cu :=
        { s.cu with
          phase := .idle, syncreqPending := false, vetoRun := 0, attempts := 0, holdBack := [], wait := .stopped
          snapshot := none } }
  if s1.order.step = .inStep then
    { s1 with order := { s1.order with lastHeard := some (s1.order.expected - 1) } }
  else s1

/-- R93: the station state is settled against the installed roster; R159: a station that lost its place clears its
slots. -/
def State.settleInstall (s : State) (base : Seq) : State :=
  let present := (s.mem.number.map s.roster.isMember).getD false
  match s.mem.state with
  | .joining => { s with mem := { s.mem with pendingJoin := true } }
  | .member =>
    if present then { s with pres := { s.pres with beat := .running s.cfg.beatInterval } }
    else
      ({ s with cu := s.cu.dropServes }.enterJoining true .removed (some base)).clearSlots .lost .removed (some base)
  | .leaving =>
    if present then s
    else (s.enterOut .detached .removed (some base)).clearSlots .lost .removed (some base)
  | .idle | .listening | .founding | .detached | .refused | .isolated => s

/-- R131, R132: a successful install with the accepted candidate. -/
def State.install (s : State) (sn : Snapshot) (t : Table) : State :=
  let s1 := s.replaceReplicated sn t
  let s2 := (heldAfter s.cu.holdBack sn.base).foldl State.applyHeld s1
  let s3 := s2.closeCatchUp
  let s4 :=
    if s3.order.step = .inStep then
      let s5 := s3.settleInstall sn.base
      if s5.order.step = .inStep then s5.revalidate sn.base else s5
    else s3
  s4.bump .catchupsCompleted

/-- R129: the received snapshot is complete: the three checks in order, then the install. -/
def State.attemptInstall (s : State) (sn : Snapshot) : State :=
  if sn.digest ≠ s.mem.ownDigest then
    (s.enterOut .refused .config (some sn.base)).clearSlots .lost .config (some sn.base)
  else if !runCheck s.cu.holdBack sn.base s.order.lastHeard then s.failAttempt .gap
  else
    match candidate s.cfg sn with
    | none => s.failAttempt .check
    | some t => s.install sn t

/-! ### SNAP parts (R126, R127) -/

/-- The received snapshot is stored, and the install follows when it is complete. -/
def State.storeSnapshot (s : State) (sn : Snapshot) : State :=
  let s1 :=
    { s with cu := { s.cu with snapshot := some sn, phase := .receiving, wait := .running s.cfg.absenceTime } }
  if sn.next = sn.count then s1.attemptInstall sn else s1

/-- R126: a SNAP header addressed to this station. -/
def State.snapHeader (s : State) (x : StationNo) (base : Seq) (count : Byte) (digest members inUse fp : Half)
    (lastTaken : List Seq) : State :=
  match s.cu.phase with
  | .idle | .requesting => s
  | .awaiting | .receiving =>
    s.storeSnapshot
      { sender := x, base := base, count := count.toNat, digest := digest, members := members, inUse := inUse
        fingerprint := fp, lastTaken := lastTaken, records := [], next := 1 }

/-- R127: a record part addressed to this station. -/
def State.snapRecord (s : State) (x : StationNo) (base : Seq) (index count : Byte) (r : RecordPart) : State :=
  match s.cu.phase, s.cu.snapshot with
  | .idle, _ => s
  | .requesting, _ => s
  | .awaiting, _ => s.failAttempt .part
  | .receiving, none => s.failAttempt .part
  | .receiving, some sn =>
    if sn.sender ≠ x then s
    else if index.toNat = sn.next ∧ count.toNat = sn.count ∧ base = sn.base then
      s.storeSnapshot { sn with records := sn.records ++ [r], next := sn.next + 1 }
    else s.failAttempt .part

/-- R126: a good SNAP reaches the catch-up unit; one addressed to another station is ignored. -/
def State.hearSnap (s : State) (f : Frame) : State :=
  let mine (target : Byte) : Bool :=
    match s.mem.number with
    | some me => decide (target.toNat = me.val)
    | none => false
  match f.body with
  | .snapHeader target count digest members inUse fp lastTaken =>
    if mine target then s.snapHeader f.sender f.seq count digest members inUse fp lastTaken else s
  | .snapRecord target index count r => if mine target then s.snapRecord f.sender f.seq index count r else s
  | .claim .. | .release _ | .withdraw _ | .evict _ | .leave | .join _ | .beat _ | .syncreq | .found _ => s

end Sys2Proof.Machine
end

