-- ==== Sys2Proof/Machine/Outcome.lean ====
section
/-! DEFINITION. Machine/Outcome.lean: the vote (R39, R40), what the outcome of a frame does at the order tracker and the
membership controller (R42, R43, R84 to R88), and at the source of an own frame (R49, R66, R85, R118, R119). -/

namespace Sys2Proof.Machine

/-! ### The vote -/

/-- R40: an IN_STEP station's vote, by the first case that applies. -/
def voteOn (expected : Seq) (r : Received) : Vote :=
  match r with
  | .failed => .veto
  | .malformed => .veto
  | .good f =>
    if f.body.kind = .found then .veto
    else if earlier f.seq expected then .veto
    else if f.seq = expected then .accept
    else .acceptLater

/-- R39: this station's vote on a frame heard from another station. -/
def State.vote (s : State) (r : Received) : Vote :=
  match s.order.step with
  | .inStep => voteOn s.order.expected r
  | .off | .behind => .abstain

/-- R39, R48: the vote is cast: a VETO counts and adds to the receiver veto run, an ACCEPT clears the run. -/
def State.castVote (s : State) (v : Vote) : State :=
  match v with
  | .abstain => s
  | .veto =>
    (State.bump { s with order := { s.order with rxRun := min (s.order.rxRun + 1) Config.rxRunLimit } } .vetoesCast)
  | .accept | .acceptLater => { s with order := { s.order with rxRun := 0 } }

/-! ### Adoption (R87, R88) -/

/-- R87 steps 1 to 4: the catch-up is abandoned, table and roster become the founder's, the step state IN_STEP. -/
def State.adoptGroup (s : State) (founder : StationNo) (digest : Half) (seq : Seq) : State :=
  let roster := { Roster.empty.add founder seq with digest := some digest }
  { s with
    cu := s.cu.stop
    table := s.table.clear
    roster := roster
    order := s.order.toInStep (seq + 1)
    pres := s.pres.watchMembers roster s.mem.number s.cfg.absenceTime }

/-- R87, R88: a taken FOUND of another station is adopted. -/
def State.adopt (s : State) (f : Frame) (digest : Half) : State :=
  let s1 := s.adoptGroup f.sender digest f.seq
  let seq := some f.seq
  if s.isMe f.sender then
    (((s1.emit (duplicateEvent f)).enterOut .isolated .duplicate seq).clearSlots .lost .duplicate seq)
  else
    match s.mem.state with
    | .leaving => (s1.enterOut .detached .dissolved seq).clearSlots .lost .dissolved seq
    | .member => (s1.enterJoining true .adopted seq).clearSlots .lost .adopted seq
    | .idle | .listening | .founding | .joining | .detached | .refused | .isolated => s1.enterJoining true .adopted seq

/-! ### Another station's frame (R43) -/

/-- R38, R43: a taken frame that a BEHIND station keeps. -/
def State.keepBack (s : State) (own : Bool) (f : Frame) (firstHeard : Bool) : State :=
  s.holdBack { frame := f, own := own } firstHeard

/-- R84, R86: a LISTENING or FOUNDING station hears a taken frame. -/
def State.hearTaken (s : State) (f : Frame) : State :=
  match f.body with
  | .found d => s.adopt f d
  | _ => ((s.enterJoining false .heard (some f.seq)).enterBehind).keepBack false f false

/-- R43: another station's good frame has been taken. -/
def State.taken (s : State) (f : Frame) (v : Vote) : State :=
  let firstHeard := decide (s.order.lastHeard = none)
  let s1 := s.record f.seq
  match s.order.step with
  | .inStep =>
    match v with
    | .accept => s.applyFrame true false none f
    | .acceptLater => s1.enterBehind.keepBack false f false
    | .abstain | .veto => s1
  | .behind =>
    match f.body with
    | .found d => s1.adopt f d
    | _ => s1.keepBack false f firstHeard
  | .off =>
    match s.mem.state with
    | .listening | .founding => s1.hearTaken f
    | .idle | .joining | .member | .leaving | .detached | .refused | .isolated => s1

/-- R83: a good frame of another station restarts a running listen timer. -/
def State.restartListen (s : State) : State :=
  if s.mem.listen.isRunning then { s with mem := { s.mem with listen := .running s.cfg.absenceTime } } else s

/-- R40, R42, R48: another station's frame ended VETOED. -/
def State.vetoed (s : State) (v : Vote) : State :=
  match v with
  | .acceptLater => if s.order.step = .inStep then s.enterBehind else s
  | .veto => if s.order.step = .inStep ∧ Config.rxRunLimit ≤ s.order.rxRun then s.enterBehind else s
  | .abstain | .accept => s

/-- R42, R58: the outcome of another station's frame. -/
def State.outcomeHeard (s : State) (r : Received) (v : Vote) (takenOutcome : Bool) : State :=
  match r, takenOutcome with
  | .good f, true => ((s.bump (.takenFrom f.sender)).taken f v).heardFrom f.sender
  | .good f, false => (s.restartListen.vetoed v).heardFrom f.sender
  | _, true => s
  | _, false => s.vetoed v

/-! ### The station's own frame -/

/-- R49: the own-frame run after an own attempt ended VETOED or FAULT; at 3 the station enters BEHIND. -/
def State.countOwnVeto (s : State) : State :=
  let n := min (s.order.ownRun + 1) Config.ownRunLimit
  let s1 := { s with order := { s.order with ownRun := n } }
  if Config.ownRunLimit ≤ n then s1.enterBehind else s1

/-- R118: an own SYNCREQ ended VETOED or FAULT; the third in a row is a failed attempt. -/
def State.syncreqUnsent (s : State) : State :=
  let n := s.cu.vetoRun + 1
  if n < Config.ownRunLimit then { s with cu := { s.cu with vetoRun := n } }
  else { s with cu := { s.cu with vetoRun := 0 } }.failAttempt .request

/-- R85: the own FOUND is vetoed. -/
def State.foundVetoed (s : State) : State := (s.enterJoining false .foundVetoed none).enterBehind

/-- R64, R65, R66: an own attempt ended VETOED, or FAULT, and the outcome reaches its source and the order tracker. A
SYNCREQ or a FOUND is not an attempt made IN_STEP, and its outcome never counts in the own-frame run (R49; DEDUCED, log 26).
A FAULT that comes after the heard frame's outcome has sent the station BEHIND or OFF does not count either: that entry has
set the run to 0, and it stays 0 (R49 leaves it open; DESIGN CHOICE, log 31). -/
def State.ownUnsent (s : State) (a : Attempt) (fault : Bool) : State :=
  let s1 := s.bump .ownVetoed
  let s2 :=
    match a.source with
    | .queue id _ => s1.entryUnsent id
    | .found => if fault then s1 else if s1.mem.state = .founding then s1.foundVetoed else s1
    | .syncreq => if s1.order.step = .behind then s1.syncreqUnsent else s1
    | .leave | .evict _ | .snap _ | .join | .beat => s1
  if s.order.step = .inStep ∧ s2.order.step = .inStep ∧ a.source ≠ .syncreq ∧ a.source ≠ .found then s2.countOwnVeto
  else s2

/-- R63, R66: an own attempt ended LOST: the frame goes back to its source. -/
def State.ownLost (s : State) (a : Attempt) : State :=
  let s1 := s.bump .arbitrationLosses
  match a.source with
  | .queue id _ => s1.entryUnsent id
  | .found | .syncreq | .leave | .evict _ | .snap _ | .join | .beat => s1

/-- R85, R79: the own FOUND is taken. -/
def State.foundTaken (s : State) (f : Frame) : State :=
  match s.mem.number with
  | none => s
  | some me =>
    { s with
      table := s.table.clear
      roster := { Roster.empty.add me f.seq with digest := some s.mem.ownDigest }
      order := s.order.toInStep (f.seq + 1) }.enterMember .founded (some f.seq)

/-- R118, R119: the own SYNCREQ is taken. -/
def State.syncreqTaken (s : State) (f : Frame) : State :=
  let s1 := s.keepBack true f false
  { s1 with cu :=
      { s1.cu with
        syncreqPending := false, vetoRun := 0, phase := .awaiting, wait := .running s1.cfg.absenceTime } }

/-- R147: the slot whose unpurged entry a send-queue attempt was of. -/
def SlotUnit.liveEntry (u : SlotUnit) (id : Nat) : Option Tag :=
  match u.queue.find? fun e => e.id = id with
  | some e => if e.purged then none else some e.tag
  | none => none

/-- R66: a taken frame leaves its source. -/
def State.leaveSource (s : State) (src : Source) : State :=
  match src with
  | .queue id _ => { s with slots := s.slots.drop id }
  | .found => { s with mem := { s.mem with pendingFound := false } }
  | .join => { s with mem := { s.mem with pendingJoin := false } }
  | .leave => { s with mem := { s.mem with pendingLeave := false } }
  | .beat => { s with pres := { s.pres with beatPending := false } }
  | .evict _ | .syncreq | .snap _ => s

/-- R43, R65, R66: an own attempt ended TAKEN. -/
def State.ownTaken (s : State) (a : Attempt) : State :=
  let f := a.frame
  let entry :=
    match a.source with
    | .queue id _ => s.slots.liveEntry id
    | _ => none
  let s1 := (s.bump .framesTaken).leaveSource a.source
  let s2 := { s1 with order := { s1.order with ownRun := 0 } }
  match s.order.step with
  | .inStep => s2.applyFrame true true entry f
  | .behind => if a.source = .syncreq then (s2.record f.seq).syncreqTaken f else s2.record f.seq
  | .off => if a.source = .found ∧ s.mem.state = .founding then (s2.record f.seq).foundTaken f else s2.record f.seq

end Sys2Proof.Machine
end

