-- ==== Sys2Proof/Machine/Line.lean ====
section
/-! DEFINITION. Machine/Line.lean: the meanings of the line's commands and of the station's own attempts: LINE_SETTLED,
LINE_FRAME_START, ATTEMPT_START, ATTEMPT_LOST, ATTEMPT_FAULT, FRAME_BROKEN, FRAME_END, FRAME_OUTCOME,
OWN_FRAME_OUTCOME, SNAP_SENT, LINE_STUCK, LINE_CLEAR (03_the_shared_line.md). -/

namespace Sys2Proof.Machine

/-! ### Choosing and building a frame (R60 to R62) -/

/-- R61: the head of the send queue, when it is of one of these kinds. -/
def State.queueHead (s : State) (kinds : List EntryKind) : Option Source :=
  match s.slots.queue with
  | e :: _ => if kinds.contains e.kind then some (.queue e.id e.kind) else none
  | [] => none

/-- A source, when it holds an eligible frame. -/
def sourceWhen (b : Bool) (src : Source) : Option Source := if b then some src else none

/-- R60, R61: the source of the frame for the next attempt, taking the first that applies. -/
def State.choose (s : State) : Option Source :=
  match s.order.step with
  | .off => sourceWhen (decide (s.mem.state = .founding) && s.mem.pendingFound) .found
  | .behind => sourceWhen (s.cu.syncreqPending && s.order.lastHeard.isSome) .syncreq
  | .inStep =>
    (sourceWhen s.mem.pendingLeave .leave).orElse fun _ =>
    (if s.mem.state = .member then s.pres.evictTarget.map .evict else none).orElse fun _ =>
    (s.queueHead [.release, .withdraw]).orElse fun _ =>
    (s.cu.serve.map fun v => Source.snap v.index).orElse fun _ =>
    (sourceWhen (s.mem.pendingJoin && decide (s.mem.state = .joining)) .join).orElse fun _ =>
    (s.queueHead [.claim]).orElse fun _ =>
    sourceWhen (s.pres.beatPending && decide (s.mem.state = .member)) .beat

/-- R199: a slot's CLAIM: lo and hi are FFh when it has no zones. -/
def claimBody (t : Tag) (x : Slot) : Body :=
  match x.zones with
  | some g => .claim (byteOf t.val) true (byteOf g.lo) (byteOf g.hi) (BitVec.ofNat 16 x.units)
  | none => .claim (byteOf t.val) false 0xFF#8 0xFF#8 (BitVec.ofNat 16 x.units)

/-- R140: the body of a send-queue entry's frame, built from the slot as it stands. -/
def State.entryBody (s : State) (e : Entry) : Body :=
  match e.kind with
  | .claim => claimBody e.tag (s.slot e.tag)
  | .release => .release (byteOf e.tag.val)
  | .withdraw => .withdraw (byteOf e.tag.val)

/-- R199: a captured record as a SNAP part carries it. -/
def Record.toPart (r : Record) : RecordPart where
  owner := byteOf r.owner.val
  tag := byteOf r.tag.val
  zonesPresent := r.zones.isSome
  held := decide (r.state = .held)
  grantedPresent := r.grantedAt.isSome
  lo := match r.zones with | some g => byteOf g.lo | none => 0xFF#8
  hi := match r.zones with | some g => byteOf g.hi | none => 0xFF#8
  units := BitVec.ofNat 16 r.units
  admittedAt := r.admittedAt
  grantedAt := r.grantedAt.getD 0

/-- R56, R123: the part of a serve with its current part index. -/
def partBody (v : Serve) (b : Capture) : Option Body :=
  if v.index = 0 then
    some (.snapHeader (byteOf v.requester.val) (byteOf v.count) (b.digest.getD 0) b.members (BitVec.ofNat 16 b.inUse)
      b.fingerprint b.lastTaken)
  else
    (b.records[v.index - 1]?).map fun r =>
      .snapRecord (byteOf v.requester.val) (byteOf v.index) (byteOf v.count) r.toPart

/-- R62: the body of the frame that a source holds. -/
def State.sourceBody (s : State) (src : Source) : Option Body :=
  match src with
  | .leave => some .leave
  | .evict x => some (.evict (byteOf x.val))
  | .queue id _ => (s.slots.queue.find? fun e => e.id = id).map s.entryBody
  | .syncreq => some .syncreq
  | .snap _ => s.cu.serve.bind fun v => s.cu.buffer.bind fun b => partBody v b
  | .found => some (.found s.mem.ownDigest)
  | .join => some (.join s.mem.ownDigest)
  | .beat => some (.beat s.fingerprint)

/-- R30, R62: the seq field, filled at the start of the attempt. -/
def State.fillSeq (s : State) (src : Source) : Seq :=
  match src with
  | .snap _ => (s.cu.serve.map Serve.base).getD 0
  | .leave | .evict _ | .queue .. | .syncreq | .found | .join | .beat =>
    match s.order.step with
    | .behind => s.order.lastHeard.getD 0 + 1
    | .off | .inStep => s.order.expected

/-- R60, R62: the attempt that the station starts now, if a source holds an eligible frame. -/
def State.nextAttempt (s : State) : Option Attempt :=
  match s.mem.number, s.choose with
  | some me, some src =>
    (s.sourceBody src).map fun b => { source := src, frame := { sender := me, seq := s.fillSeq src, body := b } }
  | _, _ => none

/-- R49: an attempt of a frame other than the one the own-frame run counts, made IN_STEP, begins the run anew. -/
def Order.countAttempt (o : Order) (src : Source) : Order :=
  if o.step = .inStep ∧ o.ownRunOf ≠ some src then { o with ownRun := 0, ownRunOf := some src } else o

/-- R52, R60: the recessive bit times counted in QUIET after `bits` more (DESIGN CHOICE, log 14). -/
def LineIf.counted (l : LineIf) (bits : Nat) : Nat := min (l.quietBits + bits) Config.idleGap

/-- R60: the line allows an attempt once `bits` more recessive bit times are counted. -/
def State.mayOffer (s : State) (bits : Nat) : Bool :=
  decide (s.line.view = .quiet) && decide (s.line.tx = .idle) && decide (Config.idleGap ≤ s.line.counted bits)

/-- R52, R62: the attempt's start bit goes on the line; none of its bits has been read back. -/
def State.startAttempt (s : State) (a : Attempt) : State :=
  { s with
    line := { s.line with view := .frame, quietBits := 0, tx := .offering a, rx := some [] }
    order := s.order.countAttempt a.source }

/-- R52: FRAME gives way to QUIET with the count at 0. -/
def LineIf.toQuiet (l : LineIf) : LineIf :=
  { l with view := .quiet, quietBits := 0, tx := .idle, rx := none, awaiting := .nothing, slot := [], faulted := none }

/-- R64, R59: the outcome of an own attempt that ended FAULT reaches its source (DEDUCED, log 16). -/
def State.deliverFault (s : State) (x : Option Faulted) : State :=
  match x with
  | some fa => s.ownUnsent fa.attempt true
  | none => s

/-! ### Reading the line (R51, R52, R197) -/

/-- R52, R63: with the last bit of the arbitration field, the `n`-th level read, offering gives way to sending. -/
def Transmitter.past (t : Transmitter) (n : Nat) : Transmitter :=
  match t with
  | .offering a => if a.frame.arbitration ≤ n then .sending a else .offering a
  | .sending a => .sending a
  | .idle => .idle

/-- The levels of the frame being received once these are read too. -/
def LineIf.frameAfter (l : LineIf) (levels : List Bool) : Option (List Bool) := l.rx.map fun r => r ++ levels

/-- R52: levels read during FRAME fill the frame being received. -/
def LineIf.reads (l : LineIf) (levels : List Bool) : LineIf :=
  match l.frameAfter levels with
  | some r => { l with rx := some r, tx := l.tx.past r.length }
  | none => l

/-- R51, R197: what is read in the bit times from 7 + `n` on after a frame's end, when the other stations leave these
levels: dominant where any station drives. -/
def Awaiting.slotLevels (w : Awaiting) (n : Nat) : List Bool → List Bool
  | [] => []
  | o :: rest => (o && w.drive n) :: w.slotLevels (n + 1) rest

/-- The levels read in bit times 7 to 9 once the others' are these. -/
def LineIf.slotAfter (l : LineIf) (others : List Bool) : List Bool :=
  l.slot ++ l.awaiting.slotLevels l.slot.length others

/-- R197: bit times 7 to 9 have been read, and the slot reads recessive: the line was recessive in both 8 and 9. -/
def slotRecessive (slot : List Bool) : Bool := (slot.drop 1).all id

/-- R65: the own attempt that is completed once these levels are read back: every bit of its frame as sent, and the two
of its slot; with whether the slot reads recessive. -/
def LineIf.completes (l : LineIf) (levels : List Bool) : Option (Attempt × Bool) :=
  match l.attempt, l.frameAfter levels with
  | some a, some r =>
    let n := a.frame.levels.length
    if r.length = n + 2 ∧ r.take n = a.frame.levels then some (a, (r.drop n).all id) else none
  | _, _ => none

/-- R64: an own attempt ends FAULT with these levels read back. In the last bit of its delimiter the frame has ended
already, by its sixth recessive bit, and the slot is being read (DESIGN CHOICE, log 30). -/
def LineIf.stopFaulted (l : LineIf) (a : Attempt) (read : List Bool) : LineIf :=
  let l1 := { l with tx := .idle, faulted := some { attempt := a, bit := read.length } }
  if read.length = a.frame.levels.length then { l1 with rx := none, awaiting := .ownRemains, slot := [false] }
  else { l1 with rx := some read }

/-- R63, R64: the own attempt that ends FAULT with these levels read back. -/
def Transmitter.faultsAt (t : Transmitter) (read : List Bool) : Option Attempt :=
  match t with
  | .offering a => if a.frame.differsAt read && !a.frame.losesAt read then some a else none
  | .sending a => if a.frame.differsAt read then some a else none
  | .idle => none

/-- R52, R60, R69, R70: one level read outside a frame. A recessive one adds to the gap; a dominant one adds to the
dominant run, and the gap starts anew. -/
def LineIf.hears (l : LineIf) (recessive : Bool) : LineIf :=
  if recessive then { l with quietBits := l.counted 1, dominantBits := 0 }
  else { l with quietBits := 0, dominantBits := min (l.dominantBits + 1) (Config.stuckBits + 1) }

/-- R52, R70: the line has been recessive for one idle gap. -/
def LineIf.gapOver (l : LineIf) : Bool := decide (Config.idleGap ≤ l.quietBits)

/-- R69: the line has been dominant without a break for more than 64 bit times of SETTLING. -/
def LineIf.isHeldDominant (l : LineIf) : Bool := decide (l.view = .settling) && decide (Config.stuckBits < l.dominantBits)

/-- The levels read in SETTLING or STUCK, up to where the view moves: `none` when a level follows that is read in the next
view (log 14). -/
def LineIf.hearsAll (l : LineIf) : List Bool → Option LineIf
  | [] => some l
  | level :: rest =>
    if (l.gapOver && !level) || (l.isHeldDominant && level) then none else (l.hears level).hearsAll rest

/-- R51, R52: a bit time in which no other station drives the line: the station reads what it drives itself. -/
def LineIf.bitTime (l : LineIf) : LineIf :=
  match l.view with
  | .settling | .quiet | .stuck => l.hears true
  | .frame =>
    if l.awaiting = .nothing then l.reads [l.drive] else { l with slot := l.slotAfter [true] }

/-! ### The line's commands -/

/-- LINE_SETTLED (R52): the line has stayed recessive for one idle gap while SETTLING. With levels that do not complete the
gap the view stays SETTLING; they are counted all the same. -/
def execLineSettled (s : State) (levels : List Bool := List.replicate 11 true) : Host.Outcome State Fault Refusal :=
  happening (s.isOn && decide (s.line.view = .settling))
    (fun s =>
      match s.line.hearsAll levels with
      | none => s
      | some l =>
        { s with line :=
            if l.gapOver then { l with view := .quiet, quietBits := Config.idleGap, dominantBits := 0 } else l }) s

/-- LINE_FRAME_START (R52, R60): the line turns dominant while the station is QUIET: the start bit, and the levels read
since. -/
def execLineFrameStart (s : State) (levels : List Bool := []) : Host.Outcome State Fault Refusal :=
  happening (s.isOn && decide (s.line.view = .quiet) && decide (s.line.tx = .idle))
    (fun s => { s with line := { s.line with view := .frame, quietBits := 0, rx := some (false :: levels) } }) s

/-- ATTEMPT_START (R60 to R62). With fewer than the idle gap's bit times counted, or nothing eligible, no attempt
starts; the bit times are counted all the same (R52). -/
def execAttemptStart (bits : Nat) (s : State) : Host.Outcome State Fault Refusal :=
  happening (s.isOn && decide (s.line.view = .quiet))
    (fun s =>
      match s.mayOffer bits, s.nextAttempt with
      | true, some a => s.startAttempt a
      | _, _ => { s with line := { s.line with quietBits := s.line.counted bits } }) s

/-- ATTEMPT_LOST (R63): the attempt ends, the frame returns to its source, and the station keeps the bits it has read and
goes on as a listener. -/
def execAttemptLost (s : State) (levels : List Bool := []) : Host.Outcome State Fault Refusal :=
  happening s.isOn
    (fun s =>
      match s.line.tx, s.line.frameAfter levels with
      | .offering a, some r =>
        if a.frame.losesAt r then State.ownLost { s with line := { s.line with tx := .idle, rx := some r } } a else s
      | _, _ => s) s

/-- ATTEMPT_FAULT (R63, R64): the transmitter stops; the outcome waits for the end of the slot, or for the break. -/
def execAttemptFault (levels : List Bool) (s : State) : Host.Outcome State Fault Refusal :=
  happening s.isOn
    (fun s =>
      match s.line.frameAfter levels with
      | none => s
      | some r =>
        match s.line.tx.faultsAt r with
        | some a => { s with line := s.line.stopFaulted a r }
        | none => s) s

/-- A frame is being received, and this station is not sending it. -/
def State.receiving (s : State) : Bool :=
  decide (s.line.view = .frame) && decide (s.line.tx = .idle) && decide (s.line.awaiting = .nothing) && s.line.rx.isSome

/-- The frame being received ends with these levels in its first run of six, of this level (R197). -/
def LineIf.endsAt (l : LineIf) (level : Bool) (levels : List Bool) : Bool :=
  (l.frameAfter levels).any (endsAtRunOf level)

/-- FRAME_BROKEN (R59): the frame is abandoned, unclassed; a FAULT attempt takes its outcome at the break. The level that
broke the frame is the first dominant one of SETTLING (DEDUCED, log 14). -/
def execFrameBroken (s : State) (levels : List Bool := []) : Host.Outcome State Fault Refusal :=
  happening (s.isOn && s.receiving && s.line.endsAt false levels)
    (fun s =>
      let s1 :=
        { s with line := { s.line with
            view := .settling, quietBits := 0, dominantBits := 1, rx := none, faulted := none } }
      (s1.bump .checkFailures).deliverFault s.line.faulted) s

/-- R64: the levels are what is left of the own attempt that ended FAULT: the line fell recessive where the station
stopped (DEDUCED, log 17). -/
def LineIf.isRemains (l : LineIf) (read : List Bool) : Bool :=
  match l.faulted with
  | some fa => (read.drop fa.bit).all id
  | none => false

/-- R57, R58, R39: another station's frame ends: a good SNAP goes to the catch-up unit, any other frame is voted on. -/
def State.frameEnds (s : State) (r : Received) : State :=
  let s1 := match r with | .good _ => s | .failed | .malformed => s.bump .checkFailures
  let isSnap := match r with | .good f => !f.body.sequenced | .failed | .malformed => false
  if isSnap then
    match r with
    | .good f =>
      let s2 := { s1 with line := { s1.line with rx := none, awaiting := .snapPart, slot := [] } }
      (s2.hearSnap f).restartListen.heardFrom f.sender
    | .failed | .malformed => s1
  else
    let v := s1.vote r
    { s1 with line := { s1.line with rx := none, awaiting := .heard r v, slot := [] } }.castVote v

/-- FRAME_END (R57, R58, R39, R40, R126, R127). What is left of an own FAULT is neither classed nor voted on (R64). -/
def execFrameEnd (levels : List Bool) (s : State) : Host.Outcome State Fault Refusal :=
  happening (s.isOn && s.receiving && s.line.endsAt true levels)
    (fun s =>
      match s.line.frameAfter levels with
      | none => s
      | some r =>
        if s.line.isRemains r then { s with line := { s.line with rx := none, awaiting := .ownRemains, slot := [] } }
        else s.frameEnds (receive r)) s

/-- FRAME_OUTCOME (R42, R43, R58, R64): the agreement slot has been read. It reads dominant when any station drove it, this
one included (R51). -/
def execFrameOutcome (others : List Bool) (s : State) : Host.Outcome State Fault Refusal :=
  happening (s.isOn && decide (s.line.awaiting ≠ .nothing) && decide ((s.line.slotAfter others).length = 3))
    (fun s =>
      let q (t : State) : State := { t with line := t.line.toQuiet }
      match s.line.awaiting with
      | .nothing => s
      | .snapPart => (q s).deliverFault s.line.faulted
      | .ownRemains => (q s).deliverFault s.line.faulted
      | .heard r v =>
        let s1 := State.outcomeHeard { s with line := { s.line with awaiting := .nothing } } r v
          (slotRecessive (s.line.slotAfter others))
        (q s1).deliverFault s.line.faulted) s

/-- OWN_FRAME_OUTCOME (R65): the station has sent its sequenced frame whole and read the slot. -/
def execOwnFrameOutcome (levels : List Bool) (s : State) : Host.Outcome State Fault Refusal :=
  happening s.isOn
    (fun s =>
      match s.line.completes levels with
      | none => s
      | some (a, recessive) =>
        if a.frame.body.sequenced then
          let s1 := { s with line := s.line.toQuiet }
          if recessive then s1.ownTaken a else s1.ownUnsent a false
        else s) s

/-- SNAP_SENT (R65, R123): an own SNAP part ends SENT, whatever was driven in its slot. A part that is done is no longer
the frame that the own-frame run counts (DEDUCED, log 13). -/
def execSnapSent (levels : List Bool) (s : State) : Host.Outcome State Fault Refusal :=
  happening s.isOn
    (fun s =>
      match s.line.completes levels with
      | none => s
      | some (a, _) =>
        if a.frame.body.sequenced then s
        else
          State.partSent { s with line := s.line.toQuiet, order := { s.order with ownRunOf := none } }) s

/-- LINE_STUCK (R69): dominant for more than 64 bit times while SETTLING. With levels that do not complete the run nothing
is raised; they are counted all the same. -/
def execLineStuck (s : State) (levels : List Bool := List.replicate 65 false) : Host.Outcome State Fault Refusal :=
  happening (s.isOn && decide (s.line.view = .settling))
    (fun s =>
      match s.line.hearsAll levels with
      | none => s
      | some l =>
        if l.isHeldDominant then
          State.emit { s with line := { l with view := .stuck, quietBits := 0, dominantBits := 0, stuck := true } }
            { kind := .lineStuck }
        else { s with line := l }) s

/-- LINE_CLEAR (R70): a stuck line has been recessive for one idle gap. With levels that do not complete the gap the view
stays STUCK; they are counted all the same. -/
def execLineClear (s : State) (levels : List Bool := List.replicate 11 true) : Host.Outcome State Fault Refusal :=
  happening (s.isOn && decide (s.line.view = .stuck))
    (fun s =>
      match s.line.hearsAll levels with
      | none => s
      | some l =>
        if l.gapOver then
          State.emit
            { s with line := { l with
                view := .quiet, quietBits := Config.idleGap, dominantBits := 0, stuck := false } }
            { kind := .lineClear }
        else { s with line := l }) s

end Sys2Proof.Machine
end

