-- ==== Sys2Proof/Machine/Port.lean ====
section
/-! DEFINITION. Machine/Port.lean: the transactions of the host port: SSN_FALLING_EDGE, TRANSACTION_TAKE, STATUS_READ, NOP,
FETCH (R173 to R177). The last three name a transaction by its shape; what each does is what the taking of its bytes
does. -/

namespace Sys2Proof.Machine

/-- R201: the FETCH code. -/
def fetchCode : Byte := 0x01#8

/-- R201: the NOP code. -/
def nopCode : Byte := 0x00#8

/-- R173, R177: the bytes shifted out in the window: the response as it stood at the fall of SSN, then 00h. -/
def windowOut (response : Option (List Byte)) (n : Nat) : List Byte :=
  (List.range n).map fun i => ((response.getD [])[i]?).getD 0

/-- R173, R177: the bytes shifted out in a transaction of these whole bytes. Byte 1 of a FETCH is a free value (log 6). -/
def shiftOut (status free : Byte) (response : Option (List Byte)) (bytes : List Byte) : List Byte :=
  match bytes with
  | [] => []
  | [_] => [status]
  | code :: _ :: window =>
    if code = fetchCode then status :: free :: windowOut response window.length
    else status :: 0 :: List.replicate window.length 0

/-- R173: the transaction is a FETCH long enough to carry the byte that the manual leaves open. -/
def drawsFree (bytes : List Byte) : Bool :=
  match bytes with
  | code :: _ :: _ => decide (code = fetchCode)
  | _ => false

/-- R175: COLLIDED clears when a status byte that shows it has been shifted out whole. -/
def Port.clearShown (p : Port) (status : Byte) (bytes : List Byte) : Port :=
  if !bytes.isEmpty && status.toNat.testBit 5 then { p with collided := false } else p

/-- R177: the taking of a well-formed FETCH. -/
def Port.takeFetch (p : Port) (response : Option (List Byte)) (window : List Byte) : Port :=
  match response with
  | some r => if r.length ≤ window.length then { p with response := none } else p
  | none => p

/-- R176, cases 4 to 6: a transaction that is no status read, no well-formed NOP and no well-formed FETCH. -/
def Port.takeRequest (p : Port) (code : Byte) (body : List Byte) (wellFormed : Bool) : Port :=
  if p.busy then { p with collided := true }
  else if wellFormed then { p with request := some { code := code, body := body }, response := none }
  else { p with response := some (responseBytes code .badForm []) }

/-- R176: the taking of a transaction of these whole bytes; `response` is the response as it stood at the fall of SSN.
Only whole bytes count, so one whole byte is a status read even when SSN rose inside a second (R173; DEDUCED, log 25). -/
def Port.take (p : Port) (response : Option (List Byte)) (bytes : List Byte) (cut : Bool) : Port :=
  match bytes with
  | [] => p
  | [_] => p
  | code :: len :: body =>
    let wf := transactionWellFormed (code :: len :: body) cut
    if wf && decide (code = nopCode) then p
    else if wf && decide (code = fetchCode) then p.takeFetch response body
    else p.takeRequest code body wf

/-- R173 to R177, R195: SSN rises after these whole bytes. -/
def State.ssnRises (s : State) (bytes : List Byte) (cut : Bool) : State :=
  match s.port.spi with
  | .ready => s
  | .waitHigh => { s with port := { s.port with spi := .ready } }
  | .opened status response =>
    let p := { s.port with spi := .ready, sdo := shiftOut status (Config.freeByte s.freeCount) response bytes }
    { s with
      port := (p.clearShown status bytes).take response bytes cut
      freeCount := if drawsFree bytes then s.freeCount + 1 else s.freeCount }

/-- SSN_FALLING_EDGE (R173, R177): the status byte is latched and the response to show is fixed. -/
def execSsnFallingEdge (s : State) : Host.Outcome State Fault Refusal :=
  happening (s.isOn && decide (s.port.spi = .ready))
    (fun s => { s with port := { s.port with spi := .opened s.statusByte s.port.response } }) s

/-- TRANSACTION_TAKE (R176). -/
def execTransactionTake (bytes : List Byte) (cut : Bool) (s : State) : Host.Outcome State Fault Refusal :=
  happening s.isOn (fun s => s.ssnRises bytes cut) s

/-- STATUS_READ (R173): exactly one whole byte. -/
def execStatusRead (first : Byte) (cut : Bool) (s : State) : Host.Outcome State Fault Refusal :=
  happening s.isOn (fun s => s.ssnRises [first] cut) s

/-- NOP (R176, case 2). -/
def execNop (s : State) : Host.Outcome State Fault Refusal :=
  happening s.isOn (fun s => s.ssnRises [nopCode, 0] false) s

/-- FETCH (R177): the declared length is the window's. -/
def execFetch (window : List Byte) (s : State) : Host.Outcome State Fault Refusal :=
  happening s.isOn (fun s => s.ssnRises (fetchCode :: byteOf window.length :: window) false) s

end Sys2Proof.Machine
end

