-- ==== Sys2Proof/Machine/Requests.lean ====
section
/-! DEFINITION. Machine/Requests.lean: the processing of a taken request (R178): SETUP, START, RESTART, ASK, FREE, CANCEL,
SURRENDER, DEPART, REJOIN, STATUS, VIEW, READ, TAKE, TALLY, UNKNOWN. -/

namespace Sys2Proof.Machine

/-! ### Processing (R178) -/

/-- What the processing of a request comes to: the state its effect leaves, the response code and the data. -/
structure Answer where
  state : State
  code  : RespCode
  data  : List Byte := []

/-- A request answered with anything but OK changes no state at its owner block (R179). -/
def State.deny (s : State) (c : RespCode) : Answer := { state := s, code := c }

/-- R156: a processed request restarts a running or expired host-check timer with the full period. -/
def Watch.touched (period : Nat) : Watch → Watch
  | .stopped => .stopped
  | .running _ => .running period
  | .expired => .running period

/-- R156: the host-check timer after a processed request. -/
def State.touchHostCheck (s : State) : State :=
  { s with slots := { s.slots with hostCheck := s.slots.hostCheck.touched s.cfg.hostCheckPeriod } }

/-- R178: the request buffer empties and the response is placed. -/
def State.respond (s : State) (request : Byte) (code : RespCode) (data : List Byte) : State :=
  { s with port := { s.port with request := none, response := some (responseBytes request code data) } }

/-- R178: the processing of the taken request, when `c` is what it asks for (DESIGN CHOICE, log 18). `touch`: whether the host-check timer is
restarted (R156). -/
def process (c : Instr) (touch : Bool) (effect : State → Answer) (s : State) : Host.Outcome State Fault Refusal :=
  happening (s.isOn && decide (s.port.request.map commandOf = some c))
    (fun s =>
      match s.port.request with
      | none => s
      | some r =>
        let a := effect s
        (if touch then a.state.touchHostCheck else a.state).respond r.code a.code a.data) s

/-! ### SETUP (R163, R170, R180, R181, R193) -/

/-- R170: the line's configuration changes it into a release input, or makes another release input of it. -/
def LineCfg.retakes (old new : LineCfg) : Bool := decide (new ≠ old) && decide (new.mode = .releaseIn)

/-- R170: the zone lines at an accepted SETUP. -/
def ZoneLines.reconfigure (z : ZoneLines) (old new : Vector LineCfg 8) : ZoneLines :=
  { z with
    settled := Vector.ofFn fun l => if LineCfg.retakes old[l] new[l] then z.pinIn[l] else z.settled[l]
    qual := Vector.ofFn fun l => if new[l] = old[l] then z.qual[l] else .stopped }

/-- R193: the idle timer at an accepted SETUP. -/
def Port.newIdleTimeout (p : Port) (timeout : Nat) : Port :=
  if timeout = 0 then { p with idleTimer := .stopped }
  else if !p.events.isEmpty && !p.idleFlag then { p with idleTimer := .running timeout }
  else p

/-- R180: an accepted SETUP. -/
def State.configure (s : State) (b : SetupBody) : State :=
  let cfg := cfgOf b
  { s with
    cfg := cfg
    mem := { s.mem with ownDigest := digestOf cfg.zoneCount cfg.poolCapacity cfg.beatInterval cfg.absenceLimit }
    zl := s.zl.reconfigure s.cfg.lines cfg.lines
    port := s.port.newIdleTimeout cfg.idleTimeout }

/-- R180. -/
def State.setup (s : State) (b : SetupBody) : Answer :=
  if s.mem.locked || decide (s.mem.state ≠ .idle) then s.deny .state
  else if !setupOk b then s.deny .badArg
  else { state := s.configure b, code := .ok }

/-- SETUP (R180). -/
def execSetup (body : SetupBody) (s : State) : Host.Outcome State Fault Refusal :=
  process (.setup body) true (fun s => s.setup body) s

/-! ### START (R82) -/

/-- R156: an accepted START starts the host-check timer when its period is not 0. -/
def State.startHostCheck (s : State) : State :=
  if s.cfg.hostCheckPeriod = 0 then s
  else { s with slots := { s.slots with hostCheck := .running s.cfg.hostCheckPeriod } }

/-- R82. -/
def State.start (s : State) : Answer :=
  if s.mem.state = .idle ∧ s.mem.strapFault = false then
    { state := (State.enterListening { s with mem := { s.mem with locked := true } } .start none).startHostCheck
      code := .ok }
  else s.deny .state

/-- START (R82). -/
def execStart (s : State) : Host.Outcome State Fault Refusal := process .start true State.start s

/-! ### RESTART (R182) -/

/-- R170: the zone lines at RESTART: a release input takes the pin level, its timer stops. -/
def ZoneLines.restart (z : ZoneLines) (lines : Vector LineCfg 8) : ZoneLines :=
  { settled := Vector.ofFn fun l => if lines[l].mode = .releaseIn then z.pinIn[l] else z.settled[l]
    qual := Vector.replicate 8 .stopped
    pinIn := z.pinIn
    edges := [] }

/-- R182: every block takes its RESTART values (R1, R31, R52, R75, R78, R100, R114, R138, R162, R172). -/
def State.softReset (s : State) : State where
  power := s.power
  cfg := s.cfg
  line := LineIf.initial
  order := Order.initial
  table := Table.empty
  roster := Roster.empty
  mem :=
    { Membership.initial with
      number := s.mem.number, rate := s.mem.rate, strapFault := s.mem.strapFault, ownDigest := s.mem.ownDigest }
  pres := Presence.stopped
  cu := CatchUp.idle
  slots := SlotUnit.initial
  zl := s.zl.restart s.cfg.lines
  port := { Port.initial with request := s.port.request, counters := s.port.counters, spi := s.port.spi, sdo := s.port.sdo }
  freeCount := s.freeCount
  pending := s.pending

/-- RESTART (R182). -/
def execRestart (s : State) : Host.Outcome State Fault Refusal :=
  process .restart true (fun s => { state := s.softReset, code := .ok }) s

/-! ### ASK, FREE, CANCEL, SURRENDER (R142 to R145) -/

/-- R142, third check: the slot is FREE and no purged entry of it is on the line. -/
def State.slotOpen (s : State) (t : Tag) : Bool :=
  decide ((s.slot t).state = .free) && !s.slots.queue.any fun e => decide (e.tag = t)

/-- R142: the slot that an accepted ASK opens. -/
def askSlot (zones : Option Range) (units hold : Nat) : Slot :=
  { Slot.empty with state := .pending, zones := zones, units := units, holdLimit := hold }

/-- R142. -/
def State.ask (s : State) (zones : Option Range) (units hold : Nat) : Answer :=
  if s.mem.state ≠ .member then s.deny .state
  else if !askOk s.cfg zones units then s.deny .badArg
  else
    match tags.find? s.slotOpen with
    | none => s.deny .noSlot
    | some t =>
      { state := (s.setSlot t (askSlot zones units hold)).push .claim t, code := .ok, data := [byteOf t.val] }

/-- ASK (R142). -/
def execAsk (flags lo hi : Byte) (units hold : Half) (s : State) : Host.Outcome State Fault Refusal :=
  process (.ask flags lo hi units hold) true (fun s => s.ask (askZones flags lo hi) units.toNat hold.toNat) s

/-- R143, R144: the checks that FREE and CANCEL share; `act` is what the request does to the slot. -/
def State.onSlot (s : State) (tag : Byte) (act : Tag → State × RespCode) : Answer :=
  if h : tag.toNat < 8 then
    if s.memberFlag then
      let (t, c) := act ⟨tag.toNat, h⟩
      { state := t, code := c }
    else s.deny .state
  else s.deny .badArg

/-- FREE (R143). -/
def execFree (tag : Byte) (s : State) : Host.Outcome State Fault Refusal :=
  process (.free tag) true (fun s => s.onSlot tag fun t => s.freeSlot t .host) s

/-- CANCEL (R144). -/
def execCancel (tag : Byte) (s : State) : Host.Outcome State Fault Refusal :=
  process (.cancel tag) true (fun s => s.onSlot tag fun t => s.cancelSlot t) s

/-- SURRENDER (R145). -/
def execSurrender (s : State) : Host.Outcome State Fault Refusal :=
  process .surrender true (fun s => if s.memberFlag then { state := s.surrender, code := .ok } else s.deny .state) s

/-! ### DEPART, REJOIN (R94, R97) -/

/-- R77, R94: entry to LEAVING. -/
def State.enterLeaving (s : State) : State :=
  State.emit
    { s with
      mem := { s.mem with state := .leaving, pendingLeave := true }
      pres := s.pres.quiesce s.cfg.absenceTime }
    (stateEvent .leaving .depart none)

/-- DEPART (R94). -/
def execDepart (s : State) : Host.Outcome State Fault Refusal :=
  process .depart true (fun s => if s.memberInStep then { state := s.enterLeaving, code := .ok } else s.deny .state) s

/-- R97: the station states that REJOIN leaves. -/
def StationState.isOut : StationState → Bool
  | .detached | .refused | .isolated => true
  | .idle | .listening | .founding | .joining | .member | .leaving => false

/-- REJOIN (R97). -/
def execRejoin (s : State) : Host.Outcome State Fault Refusal :=
  process .rejoin true
    (fun s => if s.mem.state.isOut then { state := s.enterListening .rejoin none, code := .ok } else s.deny .state) s

/-! ### STATUS (R183) -/

/-- R202. -/
def StationState.code : StationState → Byte
  | .idle => 0x00#8
  | .listening => 0x01#8
  | .founding => 0x02#8
  | .joining => 0x03#8
  | .member => 0x04#8
  | .leaving => 0x05#8
  | .detached => 0x06#8
  | .refused => 0x07#8
  | .isolated => 0x08#8

/-- R202. -/
def StepState.code : StepState → Byte
  | .off => 0x00#8
  | .behind => 0x01#8
  | .inStep => 0x02#8

/-- R202. -/
def SlotState.code : SlotState → Byte
  | .free => 0x00#8
  | .pending => 0x01#8
  | .waiting => 0x02#8
  | .held => 0x03#8
  | .releasing => 0x04#8
  | .cancelling => 0x05#8

/-- R202. -/
def Phase.code : Phase → Byte
  | .idle => 0x00#8
  | .requesting => 0x01#8
  | .awaiting => 0x02#8
  | .receiving => 0x03#8

/-- R202. -/
def Rate.code : Rate → Byte
  | .k125 => 0x00#8
  | .k250 => 0x01#8
  | .k500 => 0x02#8
  | .k1000 => 0x03#8

/-- R202: a station number; FFh when absent. -/
def stationByte (n : Option StationNo) : Byte :=
  match n with
  | some n => byteOf n.val
  | none => 0xFF#8

/-- R183, R202: the status record. -/
def State.statusRecord (s : State) : List Byte :=
  [stationByte s.mem.number,
   byteOf (flagAt 0 s.mem.strapFault + flagAt 1 s.line.stuck + flagAt 2 s.roster.digest.isSome),
   s.mem.rate.code, s.mem.state.code, s.order.step.code] ++
  halfBytes s.order.expected ++ halfBytes s.roster.word ++ [stationByte s.roster.reference] ++
  halfBytes s.mem.ownDigest ++ halfBytes (s.roster.digest.getD 0) ++ (tags.map fun t => (s.slot t).state.code) ++
  [byteOf s.port.events.length, s.cu.phase.code, byteOf s.cu.attempts]

/-- STATUS (R183). -/
def execStatus (s : State) : Host.Outcome State Fault Refusal :=
  process .status true (fun s => { state := s, code := .ok, data := s.statusRecord }) s

/-! ### Views (R184, R185, R204) -/

/-- R184, R201: the view that a code names. -/
def viewOf (code : Byte) : Option View :=
  match code.toNat with
  | 0 => some .table
  | 1 => some .roster
  | 2 => some .slots
  | _ => none

/-- R201. -/
def View.code : View → Byte
  | .table => 0x00#8
  | .roster => 0x01#8
  | .slots => 0x02#8

/-- R184: the cursor that a VIEW body names. -/
def cursorOf (code index auto : Byte) : Option Cursor :=
  match viewOf code with
  | none => none
  | some v => if auto.toNat ≤ 1 then some { view := v, index := index.toNat, auto := decide (auto = 1) } else none

/-- VIEW (R184). -/
def execView (code index auto : Byte) (s : State) : Host.Outcome State Fault Refusal :=
  process (.view code index auto) true
    (fun s =>
      match cursorOf code index auto with
      | some c => { state := { s with port := { s.port with cursor := c } }, code := .ok }
      | none => s.deny .badArg) s

/-- R204: lo and hi as an entry shows them. -/
def rangeBytes (zones : Option Range) : List Byte :=
  match zones with
  | some g => [byteOf g.lo, byteOf g.hi]
  | none => [0xFF#8, 0xFF#8]

/-- R204: a sequence number as an entry shows it. -/
def seqBytes (q : Option Seq) : List Byte := halfBytes (q.getD 0)

/-- R28, R204: the TABLE entry at an index. -/
def tableEntry (i : Nat) (r : Record) : List Byte :=
  [byteOf i, byteOf r.owner.val, byteOf r.tag.val,
   byteOf (flagAt 0 r.zones.isSome + flagAt 1 (decide (r.state = .held)) + flagAt 2 r.grantedAt.isSome)] ++
  rangeBytes r.zones ++ halfBytes (BitVec.ofNat 16 r.units) ++ halfBytes r.admittedAt ++ seqBytes r.grantedAt

/-- R81, R204: the ROSTER entry of a station. -/
def State.rosterEntry (s : State) (n : StationNo) : List Byte :=
  [byteOf n.val, byteOf (flagAt 0 (s.roster.isMember n) + flagAt 1 (decide (s.roster.reference = some n)))] ++
  seqBytes ((s.roster.members[n]).map Member.joinedAt) ++ seqBytes ((s.roster.members[n]).map Member.lastTaken)

/-- R204. -/
def Mark.code : Mark → Byte
  | .none => 0x00#8
  | .releaseAfter => 0x01#8
  | .cancelAfter => 0x02#8

/-- R204: the kind of a slot's send-queue entry. -/
def entryKindCode (e : Option Entry) : Byte :=
  match e.map Entry.kind with
  | none => 0x00#8
  | some .claim => 0x01#8
  | some .release => 0x02#8
  | some .withdraw => 0x03#8

/-- R161, R204: the time left on the hold timer of a HELD slot. -/
def Slot.holdLeft (x : Slot) : Nat :=
  match x.state, x.holdTimer with
  | .held, .running left => left
  | _, _ => 0

/-- R161, R204: the SLOTS entry of a tag. A FREE slot reads 0 in every field after its state (DEDUCED,
log 27). -/
def State.slotEntry (s : State) (t : Tag) : List Byte :=
  let x := s.slot t
  if x.state = .free then [byteOf t.val, x.state.code] ++ List.replicate 15 0
  else
    [byteOf t.val, x.state.code,
     byteOf (flagAt 0 x.zones.isSome + flagAt 1 x.admittedAt.isSome + flagAt 2 x.grantedAt.isSome +
       flagAt 3 (s.slotOnLine t))] ++
    rangeBytes x.zones ++ halfBytes (BitVec.ofNat 16 x.units) ++ halfBytes (BitVec.ofNat 16 x.holdLimit) ++
    seqBytes x.admittedAt ++ seqBytes x.grantedAt ++ [x.mark.code, entryKindCode (s.slots.entryOf t)] ++
    halfBytes (BitVec.ofNat 16 x.holdLeft)

/-- R184: the entry of a view at an index, if it has one. -/
def State.viewEntry (s : State) (v : View) (i : Nat) : Option (List Byte) :=
  match v with
  | .table => (s.table.records[i]?).map (tableEntry i)
  | .roster => if h : i < 16 then some (s.rosterEntry ⟨i, h⟩) else none
  | .slots => if h : i < 8 then some (s.slotEntry ⟨i, h⟩) else none

/-- R185: the bytes of the entries from an index on, with the end marker where one is missing, and how many there are. -/
def State.readEntries (s : State) (v : View) : Nat → Nat → List Byte × Nat
  | 0, _ => ([], 0)
  | n + 1, i =>
    match s.viewEntry v i with
    | none => ([0xFF#8], 0)
    | some e =>
      let (rest, k) := s.readEntries v n (i + 1)
      (e ++ rest, k + 1)

/-- R31, R185: the read seq. -/
def State.readSeq (s : State) : Option Seq :=
  match s.order.step with
  | .off => none
  | .behind | .inStep => some (s.order.expected - 1)

/-- R185. -/
def State.read (s : State) (count : Nat) : Answer :=
  if 1 ≤ count ∧ count ≤ 4 then
    let c := s.port.cursor
    let (bytes, k) := s.readEntries c.view count c.index
    let c' := if c.auto then { c with index := c.index + k } else c
    { state := { s with port := { s.port with cursor := c' } }
      code := .ok
      data := [byteOf (flagAt 0 s.readSeq.isSome)] ++ seqBytes s.readSeq ++ [c.view.code, byteOf c'.index] ++ bytes }
  else s.deny .badArg

/-- READ (R185). -/
def execRead (count : Byte) (s : State) : Host.Outcome State Fault Refusal :=
  process (.read count) true (fun s => s.read count.toNat) s

/-! ### TAKE (R191, R193, R203) -/

/-- R203. -/
def EventKind.code : EventKind → Byte
  | .admitted => 0x01#8
  | .granted => 0x02#8
  | .refused => 0x03#8
  | .freed => 0x04#8
  | .withdrawn => 0x05#8
  | .tooLate => 0x06#8
  | .lost => 0x07#8
  | .holdExpired => 0x08#8
  | .hostSilent => 0x09#8
  | .stationState => 0x0A#8
  | .peerIn => 0x0B#8
  | .peerOut => 0x0C#8
  | .peerRefused => 0x0D#8
  | .mismatch => 0x0E#8
  | .duplicate => 0x0F#8
  | .catchupFail => 0x10#8
  | .lineStuck => 0x11#8
  | .lineClear => 0x12#8
  | .overflow => 0x13#8

/-- R203. -/
def Cause.code : Cause → Byte
  | .host => 0x01#8
  | .hold => 0x02#8
  | .line => 0x03#8
  | .surrender => 0x04#8
  | .left => 0x05#8
  | .notSent => 0x06#8
  | .gone => 0x07#8
  | .evicted => 0x08#8
  | .removed => 0x09#8
  | .adopted => 0x0A#8
  | .dissolved => 0x0B#8
  | .duplicate => 0x0C#8
  | .catchup => 0x0D#8
  | .config => 0x0E#8
  | .resync => 0x0F#8
  | .range => 0x10#8
  | .full => 0x11#8
  | .start => 0x12#8
  | .listenTimeout => 0x13#8
  | .heard => 0x14#8
  | .founded => 0x15#8
  | .foundVetoed => 0x16#8
  | .joined => 0x17#8
  | .depart => 0x18#8
  | .rejoin => 0x19#8
  | .new => 0x1A#8
  | .renewed => 0x1B#8
  | .request => 0x1C#8
  | .timeout => 0x1D#8
  | .part => 0x1E#8
  | .gap => 0x1F#8
  | .check => 0x20#8

/-- R203: the cause byte; in a DUPLICATE event the foreign frame's kind code (R198). -/
def CauseField.code : CauseField → Byte
  | .cause c => c.code
  | .kind .found => 0x01#8
  | .kind .join => 0x02#8
  | .kind .leave => 0x03#8
  | .kind .beat => 0x04#8
  | .kind .claim => 0x05#8
  | .kind .release => 0x06#8
  | .kind .withdraw => 0x07#8
  | .kind .evict => 0x08#8
  | .kind .syncreq => 0x09#8
  | .kind .snap => 0x0A#8

/-- R203: an event record's nine bytes. -/
def Event.bytes (e : Event) : List Byte :=
  [e.kind.code,
   byteOf (flagAt 0 e.seq.isSome + flagAt 1 e.tag.isSome + flagAt 2 e.station.isSome + flagAt 3 e.state.isSome +
     flagAt 4 e.cause.isSome + flagAt 5 e.count.isSome)] ++ seqBytes e.seq ++
  [(e.tag.map fun t => byteOf t.val).getD 0, (e.station.map fun n => byteOf n.val).getD 0,
   (e.state.map StationState.code).getD 0, (e.cause.map CauseField.code).getD 0, (e.count.map byteOf).getD 0]

/-- R193: the idle timer and flag after an accepted TAKE. -/
def Port.idleAfterTake (p : Port) (timeout : Nat) : Port :=
  if p.events.isEmpty then { p with idleTimer := .stopped, idleFlag := false }
  else if !p.idleFlag && decide (timeout ≠ 0) then { p with idleTimer := .running timeout }
  else p

/-- R191. -/
def State.take (s : State) (count : Nat) : Answer :=
  if 1 ≤ count ∧ count ≤ 4 then
    let out := s.port.events.take count
    let rest := s.port.events.drop count
    { state := { s with port := Port.idleAfterTake { s.port with events := rest } s.cfg.idleTimeout }
      code := .ok
      data := [byteOf rest.length, byteOf out.length] ++ out.flatMap Event.bytes }
  else s.deny .badArg

/-- TAKE (R191). -/
def execTake (count : Byte) (s : State) : Host.Outcome State Fault Refusal :=
  process (.take count) true (fun s => s.take count.toNat) s

/-! ### TALLY, UNKNOWN (R187, R179) -/

/-- TALLY (R187). -/
def execTally (s : State) : Host.Outcome State Fault Refusal :=
  process .tally true
    (fun s =>
      { state := { s with port := { s.port with counters := Vector.replicate 28 0 } }
        code := .ok
        data := s.port.counters.toList.flatMap halfBytes }) s

/-- UNKNOWN (R179): it does not restart the host-check timer (R156). -/
def execUnknown (code : Byte) (s : State) : Host.Outcome State Fault Refusal :=
  process (.unknown code) false (fun s => s.deny .unknown) s

end Sys2Proof.Machine
end

