-- ==== Sys2Proof/Machine/Resets.lean ====
section
/-! DEFINITION. Machine/Resets.lean: the meanings of POWER_ON, RESET_PIN, RESET_PIN_ASSERTED and POWER_LOSS (R71, R73, R74,
R195). -/

namespace Sys2Proof.Machine

/-- R73: the station number; absent when a number strap is faulted (R74). -/
def strapNumber (x : Straps) : Option StationNo :=
  match x.stnA, x.stnB with
  | some a, some b => some ⟨4 * a.val + b.val, by omega⟩
  | _, _ => none

/-- R51, R74: the line rate in use; 125 kbit/s while a rate pin is faulted. -/
def strapRate (x : Straps) : Rate :=
  match x.rate1, x.rate0 with
  | some false, some true => .k250
  | some true, some false => .k500
  | some true, some true => .k1000
  | some false, some false => .k125
  | _, _ => .k125

/-- R74: the strap fault. -/
def strapFault (x : Straps) : Bool := x.stnA.isNone || x.stnB.isNone || x.rate1.isNone || x.rate0.isNone

/-- The values every block takes after power-on or the RESET pin, with the straps as read (R73) and SSN's level (R195). -/
def State.hardReset (s : State) (x : Straps) (ssnHigh : Bool) : State :=
  { State.reset with
    mem := { Membership.initial with number := strapNumber x, rate := strapRate x, strapFault := strapFault x }
    zl := { ZoneLines.initial with pinIn := s.zl.pinIn }
    port := { Port.initial with spi := if ssnHigh then .ready else .waitHigh }
    freeCount := s.freeCount
    pending := s.pending }

/-- POWER_ON (R73): power-on ends. -/
def execPowerOn (straps : Straps) (ssnHigh : Bool) (s : State) : Host.Outcome State Fault Refusal :=
  happening true (fun s => s.hardReset straps ssnHigh) s

/-- RESET_PIN (R73, R195): the RESET pin is released. -/
def execResetPin (straps : Straps) (ssnHigh : Bool) (s : State) : Host.Outcome State Fault Refusal :=
  happening (decide (s.power ≠ .off)) (fun s => s.hardReset straps ssnHigh) s

/-- R71, R195: the line interface and the port stop where they stand. -/
def State.cutOff (s : State) (p : Power) : State :=
  { s with power := p, line := LineIf.initial, port := { s.port with spi := .waitHigh } }

/-- RESET_PIN_ASSERTED (R71, R195): RESET_N goes low. What the reset sets, it sets at the release (log 12). -/
def execResetPinAsserted (s : State) : Host.Outcome State Fault Refusal :=
  happening s.isOn (fun s => s.cutOff .inReset) s

/-- POWER_LOSS (R71, R195): the supply fails. -/
def execPowerLoss (s : State) : Host.Outcome State Fault Refusal :=
  happening (decide (s.power ≠ .off)) (fun s => s.cutOff .off) s

end Sys2Proof.Machine
end

