-- ==== Sys2Proof/Machine/Timers.lean ====
section
/-! DEFINITION. Machine/Timers.lean: the meanings of the timers' expiries: LISTEN_TIMER_EXPIRY, BEAT_TIMER_EXPIRY,
ABSENCE_TIMER_EXPIRY, CATCHUP_WAIT_EXPIRY, HOLD_TIMER_EXPIRY, HOST_CHECK_EXPIRY, IDLE_TIMER_EXPIRY. A timer that does not
run does not run out; the expiry of a running one is taken at its word, whatever time is left (log 2). -/

namespace Sys2Proof.Machine

/-- R83: the listen timer runs out in LISTENING: the station moves to FOUNDING with a FOUND pending (R77). -/
def State.listenExpired (s : State) : State :=
  State.emit { s with mem := { s.mem with state := .founding, listen := .stopped, pendingFound := true } }
    (stateEvent .founding .listenTimeout none)

/-- LISTEN_TIMER_EXPIRY (R83). -/
def execListenTimerExpiry (s : State) : Host.Outcome State Fault Refusal :=
  happening (s.isOn && s.mem.listen.isRunning && decide (s.mem.state = .listening)) State.listenExpired s

/-- BEAT_TIMER_EXPIRY (R102): BEAT pending is set and the timer reloads. -/
def execBeatTimerExpiry (s : State) : Host.Outcome State Fault Refusal :=
  happening (s.isOn && s.pres.beat.isRunning)
    (fun s => { s with pres := { s.pres with beat := .running s.cfg.beatInterval, beatPending := true } }) s

/-- ABSENCE_TIMER_EXPIRY (R107): MEMBER and IN_STEP sets the evict flag, which is the timer held expired (R100); any other
combination restarts the timer. -/
def execAbsenceTimerExpiry (n : StationNo) (s : State) : Host.Outcome State Fault Refusal :=
  happening (s.isOn && s.pres.absence[n].isRunning)
    (fun s =>
      if s.memberInStep then { s with pres := { s.pres with absence := s.pres.absence.set n .expired } }
      else { s with pres := s.pres.startAbsence n s.cfg.absenceTime }) s

/-- CATCHUP_WAIT_EXPIRY (R128): a failed attempt with cause TIMEOUT. -/
def execCatchupWaitExpiry (s : State) : Host.Outcome State Fault Refusal :=
  happening (s.isOn && s.cu.wait.isRunning) (fun s => s.failAttempt .timeout) s

/-- HOLD_TIMER_EXPIRY (R145, R155): HOLD_EXPIRED is appended, then FREE acts with cause HOLD. -/
def execHoldTimerExpiry (tag : Tag) (s : State) : Host.Outcome State Fault Refusal :=
  happening (s.isOn && (s.slot tag).holdTimer.isRunning)
    (fun s => (s.emit (slotEvent .holdExpired tag none none)).giveUp .hold tag) s

/-- HOST_CHECK_EXPIRY (R157): HOST_SILENT, a surrender, and the timer stands expired. -/
def execHostCheckExpiry (s : State) : Host.Outcome State Fault Refusal :=
  happening (s.isOn && s.slots.hostCheck.isRunning)
    (fun s =>
      let s1 := (s.emit { kind := .hostSilent }).surrender
      { s1 with slots := { s1.slots with hostCheck := .expired } }) s

/-- IDLE_TIMER_EXPIRY (R193): the idle flag is set and the timer stops. -/
def execIdleTimerExpiry (s : State) : Host.Outcome State Fault Refusal :=
  happening (s.isOn && s.port.idleTimer.isRunning)
    (fun s => { s with port := { s.port with idleTimer := .stopped, idleFlag := true } }) s

end Sys2Proof.Machine
end

