-- ==== Sys2Proof/Machine/Zone.lean ====
section
/-! DEFINITION. Machine/Zone.lean: the meanings of the zone lines' commands: RELEASE_IN_PIN_CHANGE, QUALIFICATION_EXPIRY,
RELEASE_EDGE (08_zone_lines.md). The levels of the output lines are views (Machine/Flags.lean). -/

namespace Sys2Proof.Machine

/-- The line is a release input. -/
def State.isReleaseIn (s : State) (l : LineNo) : Bool := decide (s.cfg.lines[l].mode = .releaseIn)

/-- R168: what a change of the pin to this level does to the qualification timer: away from the settled level it starts,
back to it it stops. -/
def qualOnChange (settled high : Bool) (t : Timer) : Timer :=
  if high = settled then .stopped else if t.isRunning then t else .running Config.qualificationMs

/-- RELEASE_IN_PIN_CHANGE (R168): the outside changes the level at a zone pin. The level stands at the pin in any mode;
a RELEASE_IN line of a running part reads it. -/
def execReleaseInPinChange (line : LineNo) (high : Bool) (s : State) : Host.Outcome State Fault Refusal :=
  happening true
    (fun s =>
      let s1 := { s with zl := { s.zl with pinIn := s.zl.pinIn.set line high } }
      if s.isOn && s.isReleaseIn line && decide (s.zl.pinIn[line] ≠ high) then
        { s1 with zl :=
            { s1.zl with qual := s1.zl.qual.set line (qualOnChange s.zl.settled[line] high s.zl.qual[line]) } }
      else s1) s

/-- R168: the level that asserts a release input. -/
def Polarity.assertedLevel : Polarity → Bool
  | .high => true
  | .low => false

/-- QUALIFICATION_EXPIRY (R168): the other level has become the settled level; when that is the asserted level the
line's zone is handed on as a release edge (log 5). -/
def execQualificationExpiry (line : LineNo) (s : State) : Host.Outcome State Fault Refusal :=
  happening (s.isOn && s.isReleaseIn line && s.zl.qual[line].isRunning)
    (fun s =>
      let level := !s.zl.settled[line]
      { s with zl :=
          { s.zl with
            settled := s.zl.settled.set line level
            qual := s.zl.qual.set line .stopped
            edges :=
              if level = s.cfg.lines[line].polarity.assertedLevel then s.zl.edges ++ [s.cfg.lines[line].zone]
              else s.zl.edges } }) s

/-- RELEASE_EDGE (R145, R169): a release edge that was handed on reaches the slot unit. -/
def execReleaseEdge (zone : Nat) (s : State) : Host.Outcome State Fault Refusal :=
  happening (s.isOn && s.zl.edges.contains zone)
    (fun s => State.releaseZone { s with zl := { s.zl with edges := s.zl.edges.erase zone } } zone) s

end Sys2Proof.Machine
end

