-- ==== Sys2Proof/Machine/Dispatch.lean ====
section
/-! DEFINITION. Machine/Dispatch.lean: each command and its meaning. -/

namespace Sys2Proof.Machine

def exec (i : Instr) (s : State) : Host.Outcome State Fault Refusal :=
  match i with
  | .powerOn straps ssnHigh => Sys2Proof.Machine.execPowerOn straps ssnHigh s
  | .resetPin straps ssnHigh => Sys2Proof.Machine.execResetPin straps ssnHigh s
  | .transactionTake bytes cut => Sys2Proof.Machine.execTransactionTake bytes cut s
  | .statusRead first cut => Sys2Proof.Machine.execStatusRead first cut s
  | .nop => Sys2Proof.Machine.execNop s
  | .fetch window => Sys2Proof.Machine.execFetch window s
  | .setup body => Sys2Proof.Machine.execSetup body s
  | .start => Sys2Proof.Machine.execStart s
  | .restart => Sys2Proof.Machine.execRestart s
  | .ask flags lo hi units hold => Sys2Proof.Machine.execAsk flags lo hi units hold s
  | .free tag => Sys2Proof.Machine.execFree tag s
  | .cancel tag => Sys2Proof.Machine.execCancel tag s
  | .surrender => Sys2Proof.Machine.execSurrender s
  | .depart => Sys2Proof.Machine.execDepart s
  | .rejoin => Sys2Proof.Machine.execRejoin s
  | .status => Sys2Proof.Machine.execStatus s
  | .view code index auto => Sys2Proof.Machine.execView code index auto s
  | .read count => Sys2Proof.Machine.execRead count s
  | .take count => Sys2Proof.Machine.execTake count s
  | .tally => Sys2Proof.Machine.execTally s
  | .unknown code => Sys2Proof.Machine.execUnknown code s
  | .lineSettled levels => Sys2Proof.Machine.execLineSettled s levels
  | .lineFrameStart levels => Sys2Proof.Machine.execLineFrameStart s levels
  | .attemptStart bits => Sys2Proof.Machine.execAttemptStart bits s
  | .attemptLost levels => Sys2Proof.Machine.execAttemptLost s levels
  | .attemptFault levels => Sys2Proof.Machine.execAttemptFault levels s
  | .frameBroken levels => Sys2Proof.Machine.execFrameBroken s levels
  | .frameEnd levels => Sys2Proof.Machine.execFrameEnd levels s
  | .frameOutcome others => Sys2Proof.Machine.execFrameOutcome others s
  | .ownFrameOutcome levels => Sys2Proof.Machine.execOwnFrameOutcome levels s
  | .snapSent levels => Sys2Proof.Machine.execSnapSent levels s
  | .listenTimerExpiry => Sys2Proof.Machine.execListenTimerExpiry s
  | .beatTimerExpiry => Sys2Proof.Machine.execBeatTimerExpiry s
  | .absenceTimerExpiry n => Sys2Proof.Machine.execAbsenceTimerExpiry n s
  | .catchupWaitExpiry => Sys2Proof.Machine.execCatchupWaitExpiry s
  | .holdTimerExpiry tag => Sys2Proof.Machine.execHoldTimerExpiry tag s
  | .hostCheckExpiry => Sys2Proof.Machine.execHostCheckExpiry s
  | .idleTimerExpiry => Sys2Proof.Machine.execIdleTimerExpiry s
  | .lineStuck levels => Sys2Proof.Machine.execLineStuck s levels
  | .lineClear levels => Sys2Proof.Machine.execLineClear s levels
  | .releaseInPinChange line high => Sys2Proof.Machine.execReleaseInPinChange line high s
  | .qualificationExpiry line => Sys2Proof.Machine.execQualificationExpiry line s
  | .releaseEdge zone => Sys2Proof.Machine.execReleaseEdge zone s
  | .ssnFallingEdge => Sys2Proof.Machine.execSsnFallingEdge s
  | .resetPinAsserted => Sys2Proof.Machine.execResetPinAsserted s
  | .powerLoss => Sys2Proof.Machine.execPowerLoss s

end Sys2Proof.Machine
end

