-- ==== Sys2Proof/Machine/Step.lean ====
section
/-! DEFINITION. Machine/Step.lean: one step: the command at the front of the queue, or, on an empty queue, the first
happening that the station itself causes now, or one bit time (log 2). -/

namespace Sys2Proof.Machine

/-! ### What is due without the passing of time -/

/-- A command when `b` holds. -/
def commandWhen (b : Bool) (c : Instr) : List Instr := if b then [c] else []

/-- The line happenings that the bits already read or counted have brought about. -/
def LineIf.dueNow (l : LineIf) : List Instr :=
  match l.view with
  | .settling => commandWhen l.gapOver (.lineSettled []) ++ commandWhen l.isHeldDominant (.lineStuck [])
  | .stuck => commandWhen l.gapOver (.lineClear [])
  | .quiet => []
  | .frame =>
    if l.awaiting ≠ .nothing then commandWhen (decide (l.slot.length = 3)) (.frameOutcome [])
    else
      match l.completes [] with
      | some (a, _) => [if a.frame.body.sequenced then .ownFrameOutcome [] else .snapSent []]
      | none =>
        commandWhen (decide (l.tx = .idle) && l.endsAt true []) (.frameEnd []) ++
          commandWhen (decide (l.tx = .idle) && l.endsAt false []) (.frameBroken [])

/-- The timer has run out, and its expiry has not been handled. -/
def Timer.ranOut : Timer → Bool
  | .running left => decide (left = 0)
  | .stopped => false

/-- The timer has run out, and its expiry has not been handled. -/
def Watch.ranOut : Watch → Bool
  | .running left => decide (left = 0)
  | .stopped | .expired => false

/-- The expiries of the timers that have run out, in the model's order (log 2). -/
def State.expiries (s : State) : List Instr :=
  commandWhen s.mem.listen.ranOut .listenTimerExpiry ++
  commandWhen s.pres.beat.ranOut .beatTimerExpiry ++
  ((List.finRange 16).filter fun n => s.pres.absence[n].ranOut).map Instr.absenceTimerExpiry ++
  commandWhen s.cu.wait.ranOut .catchupWaitExpiry ++
  (tags.filter fun t => (s.slot t).holdTimer.ranOut).map Instr.holdTimerExpiry ++
  commandWhen s.slots.hostCheck.ranOut .hostCheckExpiry ++
  commandWhen s.port.idleTimer.ranOut .idleTimerExpiry ++
  ((List.finRange 8).filter fun l => s.zl.qual[l].ranOut).map Instr.qualificationExpiry

/-- R178, R169, R60: the station's own happenings that are due now: the processing of the taken request, the release
edges handed on, what the line has brought about, the expiries, the attempt that the line allows. -/
def State.dueNow (s : State) : List Instr :=
  (s.port.request.map commandOf).toList ++ s.zl.edges.map .releaseEdge ++ s.line.dueNow ++ s.expiries ++
    commandWhen (s.mayOffer 0 && s.nextAttempt.isSome) (.attemptStart 0)

/-! ### One millisecond -/

/-- The timer after 1 ms. -/
def Timer.tick : Timer → Timer
  | .running left => .running (left - 1)
  | .stopped => .stopped

/-- The timer after 1 ms. -/
def Watch.tick : Watch → Watch
  | .running left => .running (left - 1)
  | .stopped => .stopped
  | .expired => .expired

/-- R155: the slot after 1 ms. -/
def Slot.tick (x : Slot) : Slot := { x with holdTimer := x.holdTimer.tick }

/-- 1 ms passes: every running timer counts down. -/
def State.tick (s : State) : State :=
  { s with
    mem := { s.mem with listen := s.mem.listen.tick }
    pres := { s.pres with beat := s.pres.beat.tick, absence := s.pres.absence.map Watch.tick }
    cu := { s.cu with wait := s.cu.wait.tick }
    slots := { s.slots with slots := s.slots.slots.map Slot.tick, hostCheck := s.slots.hostCheck.tick }
    port := { s.port with idleTimer := s.port.idleTimer.tick }
    zl := { s.zl with qual := s.zl.qual.map Timer.tick } }

/-! ### One bit time -/

/-- R51: a bit time passes at the line rate in use, and with the last one of a millisecond that millisecond. -/
def State.bitTime (s : State) : State :=
  if s.mem.rate.bitsPerMs ≤ s.line.clock + 1 then { s.tick with line := { s.line.bitTime with clock := 0 } }
  else { s with line := { s.line.bitTime with clock := s.line.clock + 1 } }

/-- The step on an empty queue (log 2): of the happenings that are due the first one takes place, and what is due then is
found anew. -/
def State.idleStep (s : State) : Host.Outcome State Fault Refusal :=
  if s.isOn then
    match s.dueNow with
    | [] => .next s.bitTime
    | c :: _ => exec c s
  else .next s

/-- One step. -/
def step (s : State) : Host.Outcome State Fault Refusal :=
  match s.pending with
  | c :: rest => exec c { s with pending := rest }
  | [] => s.idleStep

/-- The state with the command that a word spells put at the front of its queue. No row gives bits (log 23). -/
def State.withFetchWord (s : State) (nbits w : Nat) : State :=
  match decodeTableWord nbits w with
  | some c => { s with pending := c :: s.pending }
  | none => s

end Sys2Proof.Machine
end

