-- ==== Sys2Proof/Safety.lean ====
section
/-! DEFINITION. Safety.lean: what the spec says holds of a station in every state, as decidable predicates of the state. -/

namespace Sys2Proof.Machine

/-! ### Processing a request -/

/-- R178: a running part has taken the request `r`, and its processing is the command `c`. -/
abbrev State.asksFor (s : State) (c : Instr) (r : Request) : Prop :=
  s.power = .on ∧ s.port.request = some r ∧ commandOf r = c

/-- R156, R178: a processed request leaves the host-check timer restarted, the request buffer empty and this response
waiting. -/
def State.answeredWith (s : State) (response : List Byte) : State :=
  { s with
    slots := { s.slots with hostCheck := s.slots.hostCheck.touched s.cfg.hostCheckPeriod }
    port := { s.port with request := none, response := some response } }

/-! ### Hearing and sending a frame -/

/-- R52, R58: the station receives a frame that it is not sending, and has read these levels of it. -/
abbrev State.receives (s : State) (read : List Bool) : Prop :=
  s.power = .on ∧ s.line.view = .frame ∧ s.line.tx = .idle ∧ s.line.awaiting = .nothing ∧ s.line.rx = some read

/-- R58, R64, R197: these levels end the frame being received in its first six recessive bit times, it is more than what
is left of an own FAULT, and it is classed so. -/
abbrev State.hears (s : State) (read levels : List Bool) (r : Received) : Prop :=
  s.receives read ∧ endsAtRunOf true (read ++ levels) = true ∧
    (∀ fa ∈ s.line.faulted, false ∈ (read ++ levels).drop fa.bit) ∧ receive (read ++ levels) = r

/-- R58, R197: the slot of a frame that was classed and voted on so has been read once the others' levels are these: bit
times 8 and 9 read `b8` and `b9`. -/
abbrev State.readsSlot (s : State) (r : Received) (v : Vote) (others : List Bool) (b8 b9 : Bool) : Prop :=
  s.power = .on ∧ s.line.awaiting = .heard r v ∧ (s.line.slotAfter others).drop 1 = [b8, b9]

/-- R65, R197: with these levels read back the station has completed this attempt, and its slot reads `b8` and `b9`. -/
abbrev State.completes (s : State) (a : Attempt) (levels : List Bool) (b8 b9 : Bool) : Prop :=
  s.power = .on ∧ s.line.attempt = some a ∧ s.line.frameAfter levels = some (a.frame.levels ++ [b8, b9])

/-- R52, R58: the line interface after an outcome: QUIET, with the count at 0. -/
abbrev LineIf.afterOutcome (l : LineIf) : LineIf :=
  { l with
    view := .quiet, quietBits := 0, tx := .idle, rx := none, awaiting := .nothing, slot := [], faulted := none }

/-! ### What a move tells and leaves -/

/-- R188: the event queue once these events have been appended in turn. -/
abbrev State.eventsWith (s : State) (es : List Event) : List Event :=
  (es.foldl (fun p e => p.append s.cfg.idleTimeout e) s.port).events

/-- R160: one event for each slot that is not FREE, in tag order. -/
abbrev State.slotEnds (s : State) (k : EventKind) (c : Cause) (seq : Option Seq) : List Event :=
  ((List.finRange 8).filter fun t => decide ((s.slots.slots[t]).state ≠ .free)).map fun t =>
    { kind := k, tag := some t, cause := some (.cause c), seq := seq }

/-- R24, R77, R136, R160: the station follows no group: nothing of one is kept, nothing is pending, no slot is in use. -/
abbrev State.outOfGroup (s : State) : Prop :=
  s.order.step = .off ∧ s.order.expected = 0 ∧ s.table = Table.empty ∧ s.roster = Roster.empty ∧
    s.pres = Presence.stopped ∧ s.cu = CatchUp.idle ∧ s.mem.pendingFound = false ∧ s.mem.pendingJoin = false ∧
    s.mem.pendingLeave = false ∧ (∀ t : Tag, s.slots.slots[t] = Slot.empty) ∧ ∀ e ∈ s.slots.queue, e.purged = true

/-! ### What a report does to the slots -/

/-- An event of a slot. -/
abbrev slotNote (t : Tag) (k : EventKind) (c : Option Cause) (seq : Option Seq) : Event :=
  { kind := k, tag := some t, cause := c.map .cause, seq := seq }

/-- R155: the slot is HELD, and its hold timer has started. -/
abbrev Slot.heldSince (x : Slot) (granted : Option Seq) : Slot :=
  { x with
    state := .held, grantedAt := granted, mark := .none
    holdTimer := if x.holdLimit = 0 then .stopped else .running x.holdLimit }

/-- R151: the row of a slot whose record a frame with this seq grants, and whose entry is on the line or not: the slot
after it, its events, and whether its entry leaves the queue. -/
def grantRow (t : Tag) (x : Slot) (onLine : Bool) (seq : Seq) : Slot × List Event × Bool :=
  let granted := slotNote t .granted none (some seq)
  match x.state, onLine with
  | .waiting, _ => (x.heldSince (some seq), [granted], false)
  | .cancelling, false => (x.heldSince (some seq), [granted, slotNote t .tooLate none (some seq)], true)
  | .cancelling, true =>
    if x.mark = .releaseAfter then
      ({ x with state := .releasing, grantedAt := some seq, holdTimer := .stopped }, [granted], false)
    else (x.heldSince (some seq), [granted], false)
  | .releasing, _ => ({ x with grantedAt := some seq }, [], false)
  | .free, _ | .pending, _ | .held, _ => (x, [], false)

/-- R154: the row of a slot whose record a frame with this seq removes that is not the slot's own. -/
def removalRow (t : Tag) (x : Slot) (onLine : Bool) (seq : Seq) : Slot × List Event × Bool :=
  match x.state, onLine with
  | .waiting, _ | .held, _ => (Slot.empty, [slotNote t .lost (some .duplicate) (some seq)], false)
  | .cancelling, false => (Slot.empty, [slotNote t .withdrawn (some .gone) none], true)
  | .releasing, false => (Slot.empty, [slotNote t .freed (some .gone) none], true)
  | .cancelling, true | .releasing, true | .free, _ | .pending, _ => (x, [], false)

/-- R147: from `s` to `t` every slot of a removed or a granted own record takes its row, the rows' events follow these
others, removals before grants and each in report order, and no other slot moves. -/
abbrev State.settlesTo (s t : State) (me : StationNo) (seq : Seq) (removed : List Record)
    (grants : List (StationNo × Tag)) (others : List Event) : Prop :=
  let gone (k : Tag) : Bool := removed.any fun r => decide (r.owner = me ∧ r.tag = k)
  let granted (k : Tag) : Bool := grants.any fun g => decide (g = (me, k))
  let row (k : Tag) : Slot × List Event × Bool :=
    let x := s.slots.slots[k]
    if gone k then removalRow k x (s.slotOnLine k) seq
    else if granted k then grantRow k x (s.slotOnLine k) seq
    else (x, [], false)
  t.slots = { s.slots with
      slots := Vector.ofFn fun k => (row k).1
      queue := s.slots.queue.filter fun q => q.purged || !(row q.tag).2.2 } ∧
    t.port.events = s.eventsWith (others ++
      ((removed.filter fun r => decide (r.owner = me)).flatMap fun r => (row r.tag).2.1) ++
      ((grants.filter fun g => decide (g.1 = me)).flatMap fun g => (row g.2).2.1))

/-! ### An own outcome that is not TAKEN -/

/-- R49, R38, R101, R108, R116, R125: an own attempt made IN_STEP that was not taken is counted, and the third of one
frame sends the station BEHIND. -/
abbrev State.countsUnsent (u t : State) : Prop :=
  let absence := u.cfg.absenceLimit * u.cfg.beatInterval
  (u.order.ownRun < 2 → t.order = { u.order with ownRun := u.order.ownRun + 1 } ∧ t.pres = u.pres ∧ t.cu = u.cu) ∧
  (2 ≤ u.order.ownRun →
    t.order = { u.order with step := .behind, rxRun := 0, ownRun := 0, ownRunOf := none } ∧
    t.pres.beat = .stopped ∧ t.pres.beatPending = false ∧
    (∀ n : StationNo, t.pres.absence[n] =
      if u.pres.absence[n] = .expired then .running absence else u.pres.absence[n]) ∧
    t.cu = { CatchUp.idle with
      phase := .requesting, syncreqPending := true
      wait := if u.order.lastHeard = none then .running absence else .stopped })

/-- R49, R59, R64, R66, R85, R103, R109, R118, R150, R152, R153: `t` is `u` once the outcome FAULT of this own attempt has
reached its source. That a FAULT which finds the station out of step is not counted is the model's choice (log 31). -/
abbrev State.returnsFault (u t : State) (a : Attempt) : Prop :=
  let absence := u.cfg.absenceLimit * u.cfg.beatInterval
  let counted := u.bump .ownVetoed
  let unsent : Prop :=
    (u.order.step = .inStep → u.countsUnsent t) ∧
    (u.order.step ≠ .inStep → t.order = u.order ∧ t.pres = u.pres ∧ t.cu = u.cu)
  (a.source = .leave ∨ a.source = .join ∨ a.source = .beat ∨ (∃ x, a.source = .evict x) ∨ (∃ i, a.source = .snap i) →
    unsent ∧ t = { counted with order := t.order, pres := t.pres, cu := t.cu }) ∧
  (∀ id k, a.source = .queue id k →
    let keeps (slots : SlotUnit) (es : List Event) : Prop :=
      unsent ∧
        t = { counted with
          order := t.order, pres := t.pres, cu := t.cu, slots := slots
          port := es.foldl (fun p e => p.append u.cfg.idleTimeout e) counted.port }
    (u.slots.queue.find? (fun q => q.id = id) = none → keeps u.slots []) ∧
    ∀ e, u.slots.queue.find? (fun q => q.id = id) = some e →
      let x := u.slots.slots[e.tag]
      let ends (y : Slot) : SlotUnit := { u.slots with
        slots := u.slots.slots.set e.tag y
        queue := u.slots.queue.filter fun q => decide (q.tag ≠ e.tag) || q.purged }
      let released : SlotUnit := { u.slots with
        slots := u.slots.slots.set e.tag { x with state := .releasing, mark := .none, holdTimer := .stopped }
        queue := u.slots.queue.map fun q =>
          if q.tag = e.tag ∧ q.purged = false then { q with kind := .release } else q }
      (e.purged = true → keeps { u.slots with queue := u.slots.queue.filter fun q => decide (q.id ≠ id) } []) ∧
      (e.purged = false →
        (e.kind = .release → keeps u.slots []) ∧
        (e.kind = .claim →
          (x.mark = .none → keeps u.slots []) ∧
          (x.mark = .releaseAfter → keeps (ends Slot.empty) [slotNote e.tag .freed (some .notSent) none]) ∧
          (x.mark = .cancelAfter → keeps (ends Slot.empty) [slotNote e.tag .withdrawn (some .notSent) none])) ∧
        (e.kind = .withdraw →
          (x.state = .cancelling → x.mark ≠ .releaseAfter → keeps u.slots []) ∧
          (x.state = .cancelling ∨ x.state = .releasing → x.mark = .releaseAfter → keeps released []) ∧
          (x.state = .held → keeps (ends { x with mark := .none }) [slotNote e.tag .tooLate none none])))) ∧
  (a.source = .found ∨ a.source = .syncreq ∧ u.order.step ≠ .behind → t = counted) ∧
  (a.source = .syncreq → u.order.step = .behind →
    let failed := State.bump (counted.emit
      { kind := .catchupFail, count := some (u.cu.attempts + 1), cause := some (.cause .request) }) .attemptsFailed
    (u.cu.vetoRun < 2 → t = { counted with cu := { u.cu with vetoRun := u.cu.vetoRun + 1 } }) ∧
    (2 ≤ u.cu.vetoRun → u.cu.attempts < 2 → t = { failed with cu := { u.cu with
      attempts := u.cu.attempts + 1, snapshot := none, vetoRun := 0, syncreqPending := true, phase := .requesting
      wait :=
        if u.cu.phase = .requesting ∧ u.order.lastHeard = none then .running absence else .stopped } }) ∧
    (2 ≤ u.cu.vetoRun → 2 ≤ u.cu.attempts → t.mem.state = .isolated ∧ t.outOfGroup ∧ t.line = u.line ∧
      t.cfg = u.cfg ∧ t.zl = u.zl ∧ t.port.counters = failed.port.counters ∧
      t.port.events = failed.eventsWith
        ({ kind := .stationState, state := some .isolated, cause := some (.cause .catchup), seq := u.order.lastHeard } ::
          u.slotEnds .lost .catchup none)))

/-! ### The line -/

/-- R52, R69, R70: the levels read outside a frame: what was counted before, and these. -/
abbrev LineIf.history (l : LineIf) (levels : List Bool) : List Bool :=
  List.replicate l.quietBits true ++ List.replicate l.dominantBits false ++ levels

/-- R52, R70: one idle gap of recessive levels without a break is among them. -/
abbrev LineIf.hasGap (l : LineIf) (levels : List Bool) : Prop := List.replicate 11 true <:+: l.history levels

/-- R69: more than 64 dominant levels without a break are among them. -/
abbrev LineIf.hasStuck (l : LineIf) (levels : List Bool) : Prop := List.replicate 65 false <:+: l.history levels

/-- R52, R69, R70: the line interface once these levels have been read, and the view has not moved. -/
abbrev LineIf.counting (l : LineIf) (levels : List Bool) : LineIf :=
  { l with
    quietBits := min ((l.history levels).reverse.takeWhile id).length 11
    dominantBits := min ((l.history levels).reverse.takeWhile not).length 65 }

/-- R52, R58, R63 to R65, R69: line view, transmitter, frame being received, slot and line-stuck flag agree, and what an
attempt in flight has read back is what it sent. -/
abbrev State.lineOk (s : State) : Prop :=
  (s.line.view = .frame ↔ s.line.rx ≠ none ∨ s.line.awaiting ≠ .nothing) ∧
  (s.line.awaiting ≠ .nothing → s.line.rx = none) ∧
  (s.line.faulted ≠ none → s.line.view = .frame ∧ s.line.tx = .idle) ∧
  (∀ a ∈ s.line.attempt, ∃ read ∈ s.line.rx, read.isPrefixOf a.frame.sent = true ∧
    (s.line.tx = .offering a ↔ read.length < a.frame.arbitration)) ∧
  (s.line.stuck = true ↔ s.line.view = .stuck) ∧
  s.line.quietBits ≤ Config.idleGap ∧ s.line.dominantBits ≤ 65 ∧ (s.line.quietBits = 0 ∨ s.line.dominantBits = 0) ∧
  (s.line.view = .quiet ∨ s.line.view = .frame → s.line.dominantBits = 0) ∧ s.line.slot.length ≤ 3 ∧ s.line.clock < s.mem.rate.bitsPerMs

/-! ### Reservation table -/

/-- R2, R7, R13: a claim record that this configuration admits. -/
abbrev Record.ok (cfg : Cfg) (r : Record) : Prop :=
  (r.zones.all fun g => decide (g.lo ≤ g.hi) && decide (g.hi < cfg.zoneCount)) = true ∧ r.units ≤ cfg.poolCapacity ∧
    (r.zones.isSome = true ∨ 0 < r.units) ∧ (r.grantedAt.isSome = true ↔ r.state = .held)

/-- R4, R5, R6: the table's limits, the zone map as the HELD records give it, and the pool in use as their sum. -/
abbrev Table.ok (cfg : Cfg) (t : Table) : Prop :=
  t.records.length ≤ Config.maxRecords ∧ distinctClaims t.records = true ∧ ownersWithinLimit t.records = true ∧
    (∀ r ∈ t.records, r.ok cfg) ∧ heldDisjoint t.records = true ∧
    (∀ z : Fin 32, t.zoneMap[z] = holderOf t.records z.val) ∧ t.inUse = heldUnits t.records ∧
    t.inUse ≤ cfg.poolCapacity

/-- R11, R21 to R23, R25: every record's owner is a member. -/
abbrev State.ownersOk (s : State) : Prop := ∀ r ∈ s.table.records, s.roster.isMember r.owner = true

/-! ### Standing -/

/-- R35: the station states that follow the group's order. -/
def StationState.follows : StationState → Bool
  | .joining | .member | .leaving => true
  | .idle | .listening | .founding | .detached | .refused | .isolated => false

/-- R24, R32, R35, R75, R78, R83, R114, R115: station state, step state, catch-up phase, lock and listen timer agree. -/
abbrev State.standingOk (s : State) : Prop :=
  (s.mem.state.follows = true ↔ s.order.step ≠ .off) ∧
  (s.order.step = .behind ↔ s.cu.phase ≠ .idle) ∧
  (s.cu.wait.isRunning = true → s.cu.phase ≠ .idle) ∧
  (s.order.step = .off → s.table = Table.empty ∧ s.roster = Roster.empty) ∧
  (s.mem.locked = true ↔ s.mem.state ≠ .idle) ∧
  (s.mem.listen.isRunning = true ↔ s.mem.state = .listening)

/-! ### Presence timers -/

/-- R100, R101, R106, R108: the beat timer runs exactly while MEMBER and IN_STEP, BEAT pending and evict flags stand only
then, and an absence timer is not stopped exactly for the other members. -/
abbrev State.presenceOk (s : State) : Prop :=
  (s.pres.beat.isRunning = true ↔ s.memberInStep = true) ∧
  (s.pres.beatPending = true → s.memberInStep = true) ∧
  (∀ n : StationNo, s.pres.evictFlag n = true → s.memberInStep = true) ∧
  (∀ n : StationNo, s.pres.absence[n] ≠ .stopped ↔ s.roster.isMember n = true ∧ s.mem.number ≠ some n)

/-! ### Bounds -/

/-- R31, R114, R117, R121, R134: veto runs, attempt count and queues within their bounds. -/
abbrev State.boundsOk (s : State) : Prop :=
  s.order.rxRun ≤ Config.rxRunLimit ∧ s.order.ownRun ≤ Config.ownRunLimit ∧ s.cu.vetoRun < Config.ownRunLimit ∧
    s.cu.attempts < Config.maxAttempts ∧ s.cu.holdBack.length ≤ Config.maxHoldBack ∧
    s.cu.serveList.length ≤ Config.maxServeList

/-- R121, R122, R125: only a station IN_STEP serves, and the snapshot buffer is held exactly while a serve is in
progress. -/
abbrev State.servingOk (s : State) : Prop :=
  (s.order.step ≠ .inStep → s.cu.serve = none ∧ s.cu.serveList = []) ∧
    (s.cu.serve.isSome = true ↔ s.cu.buffer.isSome = true)

/-- R189: the event queue holds at most 32 records, and when it holds 32 the newest is an OVERFLOW record. -/
abbrev State.eventsOk (s : State) : Prop :=
  s.port.events.length ≤ Config.maxEvents ∧
    (s.port.events.length = Config.maxEvents → (s.port.events.getLast?.map Event.kind) = some .overflow)

/-- R193: the idle flag is set, and the idle timer runs, only while the queue is not empty, and never both. -/
abbrev State.idleOk (s : State) : Prop :=
  (s.port.idleFlag = true → s.port.events ≠ [] ∧ s.port.idleTimer = .stopped) ∧
    (s.port.idleTimer.isRunning = true → s.port.events ≠ [])

/-! ### Configuration -/

/-- R180, R163: every field of the configuration is in its range. -/
abbrev Cfg.ok (c : Cfg) : Prop :=
  1 ≤ c.zoneCount ∧ c.zoneCount ≤ 32 ∧ c.poolCapacity ≤ 1023 ∧ 10 ≤ c.beatInterval ∧ c.beatInterval ≤ 1000 ∧
    2 ≤ c.absenceLimit ∧ c.absenceLimit ≤ 15 ∧
    (c.hostCheckPeriod = 0 ∨ 10 ≤ c.hostCheckPeriod ∧ c.hostCheckPeriod ≤ 10000) ∧
    1 ≤ c.triggerLevel ∧ c.triggerLevel ≤ 32 ∧ c.idleTimeout ≤ 255 ∧
    ∀ l : LineNo, c.lines[l].mode = .grantOut ∨ c.lines[l].mode = .releaseIn → c.lines[l].zone < c.zoneCount

end Sys2Proof.Machine
end

