-- ==== Sys2Proof/WellFormed.lean ====
section
/-! DEFINITION. WellFormed.lean: which commands can be given at all. The checks are on a command's operands alone;
whether its happening can take place in a state is the machine's. -/

namespace Sys2Proof

open Sys2Proof.Machine (noRunOfSix)

/-- The codes that name a request (R201). -/
def requestCodes : List Byte :=
  [0x00#8, 0x01#8, 0x10#8, 0x11#8, 0x12#8, 0x20#8, 0x21#8, 0x22#8, 0x23#8, 0x30#8, 0x31#8, 0x40#8, 0x41#8, 0x42#8,
   0x43#8, 0x44#8]

/-- A well-formed command. Levels read are checked as far as they show by themselves that the happening is where they
end: it is the last of them that ends or breaks a frame or ends an attempt (R63, R64, R197). -/
def Instr.wellFormed : Instr → Bool
  | .fetch window => decide (window.length ≤ 255)
  | .unknown code => !requestCodes.contains code
  | .lineFrameStart levels => noRunOfSix (false :: levels)
  | .attemptLost levels => decide (levels.getLast? = some false)
  | .attemptFault levels => !levels.isEmpty
  | .frameBroken levels => noRunOfSix levels.dropLast && decide (levels.getLast? ≠ some true)
  | .frameEnd levels => noRunOfSix levels.dropLast && decide (levels.getLast? ≠ some false)
  | .frameOutcome others => decide (others.length ≤ 3)
  | .releaseEdge zone => decide (zone < 32)
  | .powerOn .. | .resetPin .. | .transactionTake .. | .statusRead .. | .nop | .setup .. | .start | .restart | .ask .. | .free ..
  | .cancel .. | .surrender | .depart | .rejoin | .status | .view .. | .read .. | .take .. | .tally | .lineSettled ..
  | .attemptStart .. | .ownFrameOutcome .. | .snapSent .. | .listenTimerExpiry | .beatTimerExpiry | .absenceTimerExpiry .. | .catchupWaitExpiry
  | .holdTimerExpiry .. | .hostCheckExpiry | .idleTimerExpiry | .lineStuck .. | .lineClear .. | .releaseInPinChange ..
  | .qualificationExpiry .. | .ssnFallingEdge | .resetPinAsserted | .powerLoss => true

end Sys2Proof
end

