-- ==== Sys2Proof/Certificates/Slice0/Obligations.lean ====
section
/-! DEFINITION. Certificates/Slice0/Obligations.lean: the statements for the provers. -/

open Sys2Proof Sys2Proof.Machine

/-! ### The step and reset -/

/-- One step takes the command at the front of the queue and runs it on the state with the queue's rest. -/
def Obligations.StepRunsTheFrontCommand : Prop :=
  ∀ (c : Instr) (rest : List Instr) (s : State),
    step { s with pending := c :: rest } = exec c { s with pending := rest }

/-- The model's own choice for an empty queue (log 2): a part that is not running idles; of the happenings that the station
itself causes, the processing of a taken request first, the first that is due takes place; with nothing due, one bit time
passes in which the station reads what it drives itself. It counts recessive bit times outside FRAME; in FRAME the level
joins the frame being received, an attempt goes from offering to sending with the last bit of its arbitration field, and
a vetoing station drives bit times 8 and 9 dominant. With the last bit time of a millisecond every running timer counts
down by one, and the expiry of one that has come to 0 is due. -/
def Obligations.EmptyQueueRunsTheStation : Prop :=
  ∀ s : State, s.pending = [] →
    (s.power ≠ .on → step s = .next s) ∧
    (s.power = .on → ∀ r, s.port.request = some r → step s = exec (commandOf r) s) ∧
    (s.power = .on → ∀ c rest, s.dueNow = c :: rest → step s = exec c s) ∧
    ((s.mem.listen = .running 0 → .listenTimerExpiry ∈ s.dueNow) ∧
      (s.pres.beat = .running 0 → .beatTimerExpiry ∈ s.dueNow) ∧
      (∀ x : StationNo, s.pres.absence[x] = .running 0 → .absenceTimerExpiry x ∈ s.dueNow) ∧
      (s.cu.wait = .running 0 → .catchupWaitExpiry ∈ s.dueNow) ∧
      (∀ k : Tag, (s.slots.slots[k]).holdTimer = .running 0 → .holdTimerExpiry k ∈ s.dueNow) ∧
      (s.slots.hostCheck = .running 0 → .hostCheckExpiry ∈ s.dueNow) ∧
      (s.port.idleTimer = .running 0 → .idleTimerExpiry ∈ s.dueNow) ∧
      (∀ l : LineNo, s.zl.qual[l] = .running 0 → .qualificationExpiry l ∈ s.dueNow)) ∧
    (s.power = .on → s.dueNow = [] → ∃ t, step s = .next t ∧
      (s.line.clock + 1 < s.mem.rate.bitsPerMs → t = { s with line := t.line } ∧ t.line.clock = s.line.clock + 1) ∧
      (s.mem.rate.bitsPerMs ≤ s.line.clock + 1 → t.line.clock = 0 ∧ t.pending = [] ∧
        t.order = s.order ∧ t.table = s.table ∧ t.roster = s.roster ∧ t.cfg = s.cfg ∧ t.mem.state = s.mem.state ∧
        t.port.events = s.port.events ∧
        (∀ n, s.mem.listen = .running (n + 1) → t.mem.listen = .running n) ∧
        (∀ n, s.pres.beat = .running (n + 1) → t.pres.beat = .running n) ∧
        (∀ x : StationNo, ∀ n, s.pres.absence[x] = .running (n + 1) → t.pres.absence[x] = .running n) ∧
        (∀ n, s.cu.wait = .running (n + 1) → t.cu.wait = .running n) ∧
        (∀ k : Tag, ∀ n, (s.slots.slots[k]).holdTimer = .running (n + 1) →
          (t.slots.slots[k]).holdTimer = .running n) ∧
        (∀ n, s.slots.hostCheck = .running (n + 1) → t.slots.hostCheck = .running n) ∧
        (∀ n, s.port.idleTimer = .running (n + 1) → t.port.idleTimer = .running n) ∧
        (∀ l : LineNo, ∀ n, s.zl.qual[l] = .running (n + 1) → t.zl.qual[l] = .running n)) ∧
      (s.line.view ≠ .frame →
        t.line = { s.line with
          quietBits := min (s.line.quietBits + 1) 11, dominantBits := 0, clock := t.line.clock }) ∧
      (s.line.view = .frame → s.line.awaiting = .nothing → ∀ read, s.line.rx = some read →
        (s.line.tx = .idle → t.line = { s.line with rx := some (read ++ [true]), clock := t.line.clock }) ∧
        (∀ a level, s.line.tx = .offering a ∨ s.line.tx = .sending a → a.frame.sent[read.length]? = some level →
          t.line = { s.line with
            rx := some (read ++ [level]), clock := t.line.clock
            tx :=
              if s.line.tx = .offering a ∧ read.length + 1 < a.frame.arbitration then .offering a
              else .sending a })) ∧
      (s.line.view = .frame → s.line.tx = .idle → s.line.awaiting ≠ .nothing →
        let veto : Prop := ∃ r, s.line.awaiting = .heard r .veto
        (veto → s.line.slot.length = 1 ∨ s.line.slot.length = 2 →
          t.line = { s.line with slot := s.line.slot ++ [false], clock := t.line.clock }) ∧
        (¬ veto ∨ s.line.slot.length = 0 →
          t.line = { s.line with slot := s.line.slot ++ [true], clock := t.line.clock })))

/-- Every command answers a next state: the block has no stop. That a command whose happening cannot take place changes
nothing is the model's choice (log 9). -/
def Obligations.EveryCommandAnswersNext : Prop :=
  ∀ (c : Instr) (s : State), ∃ t, exec c s = .next t

/-- The values of State.reset that the chapters give after power-on. -/
def Obligations.ResetHoldsTheSpecsValues : Prop :=
  let s := State.reset
  s.line.view = .settling ∧ s.line.tx = .idle ∧ s.line.rx = none ∧ s.line.stuck = false ∧
  s.order.step = .off ∧ s.order.expected = 0 ∧ s.order.lastHeard = none ∧ s.order.rxRun = 0 ∧ s.order.ownRun = 0 ∧
  s.table.records = [] ∧ (∀ z : Fin 32, s.table.zoneMap[z] = none) ∧ s.table.inUse = 0 ∧
  (∀ n : StationNo, s.roster.members[n] = none) ∧ s.roster.digest = none ∧
  s.mem.state = .idle ∧ s.mem.locked = false ∧ s.mem.listen = .stopped ∧ s.mem.ownDigest = digestOf 32 0 100 4 ∧
  s.pres.beat = .stopped ∧ s.pres.beatPending = false ∧ (∀ n : StationNo, s.pres.absence[n] = .stopped) ∧
  s.cu.phase = .idle ∧ s.cu.holdBack = [] ∧ s.cu.attempts = 0 ∧ s.cu.serve = none ∧ s.cu.serveList = [] ∧
  (∀ t : Tag, (s.slots.slots[t]).state = .free) ∧ s.slots.queue = [] ∧ s.slots.hostCheck = .stopped ∧
  (∀ l : LineNo, (s.cfg.lines[l]).mode = .off ∧ (s.cfg.lines[l]).polarity = .high) ∧
  s.port.request = none ∧ s.port.response = none ∧ s.port.collided = false ∧ s.port.events = [] ∧
  s.port.idleFlag = false ∧ s.port.cursor = { view := .table, index := 0, auto := false } ∧
  (∀ k : Fin 28, s.port.counters[k] = 0) ∧ s.intAsserted = false

/-! ### Power and reset -/

/-- POWER_ON and RESET_PIN: station number, rate and fault as the straps read; every other block at the value of
State.reset; the outside's pin levels and the queue stay. A part without supply takes no RESET_PIN. -/
def Obligations.ResetReadsTheStraps : Prop :=
  ∀ (s : State) (x : Straps) (ssnHigh : Bool),
    ∃ t, exec (.powerOn x ssnHigh) s = .next t ∧
      (s.power ≠ .off → exec (.resetPin x ssnHigh) s = .next t) ∧
      (s.power = .off → exec (.resetPin x ssnHigh) s = .next s) ∧
      t = { State.reset with
            mem := { State.reset.mem with
              number := t.mem.number, rate := t.mem.rate, strapFault := t.mem.strapFault }
            zl := { State.reset.zl with pinIn := s.zl.pinIn }
            port := { State.reset.port with spi := if ssnHigh then .ready else .waitHigh }
            freeCount := s.freeCount, pending := s.pending } ∧
      (∀ a b, x.stnA = some a → x.stnB = some b → t.mem.number.map Fin.val = some (4 * a.val + b.val)) ∧
      (x.stnA = none ∨ x.stnB = none → t.mem.number = none) ∧
      (x.rate1 = some false → x.rate0 = some true → t.mem.rate = .k250) ∧
      (x.rate1 = some true → x.rate0 = some false → t.mem.rate = .k500) ∧
      (x.rate1 = some true → x.rate0 = some true → t.mem.rate = .k1000) ∧
      (x.rate1 = some false → x.rate0 = some false → t.mem.rate = .k125) ∧
      (x.rate1 = none ∨ x.rate0 = none → t.mem.rate = .k125) ∧
      (t.mem.strapFault = true ↔ x.stnA = none ∨ x.stnB = none ∨ x.rate1 = none ∨ x.rate0 = none) ∧
      t.sdoDrive = .highZ

/-- RESET_PIN_ASSERTED and POWER_LOSS: the line interface and the transaction are cut off where they stand and SDO goes to
high impedance; nothing else moves until the reset ends (the rest is the model's choice, log 12). -/
def Obligations.ResetHeldCutsLineAndPort : Prop :=
  ∀ s : State,
    let held (p : Power) : State := { s with power := p, line := LineIf.initial, port := { s.port with spi := .waitHigh } }
    (s.power = .on → exec .resetPinAsserted s = .next (held .inReset)) ∧
    (s.power ≠ .off → exec .powerLoss s = .next (held .off)) ∧
    ∀ p, (held p).sdoDrive = .highZ

/-- The straps' readings change at POWER_ON and RESET_PIN only. -/
def Obligations.StrapReadingsStay : Prop :=
  ∀ (c : Instr) (s t : State), exec c s = .next t → (∀ x h, c ≠ .powerOn x h) → (∀ x h, c ≠ .resetPin x h) →
    t.mem.number = s.mem.number ∧ t.mem.rate = s.mem.rate ∧ t.mem.strapFault = s.mem.strapFault

/-! ### Transactions -/

/-- SSN_FALLING_EDGE latches the status byte, flag by flag, and fixes the response that a FETCH will show. SDO is high
impedance before it and driven after it; it is driven while a transaction is open, and only then. That it is not driven
while SSN is still low after a reset, where R173 alone would drive it, is DEDUCED from R195 (log 29). -/
def Obligations.FallOfSsnLatchesTheStatusByte : Prop :=
  (∀ s : State, s.power = .on → s.port.spi = .ready →
    ∃ b : Byte, exec .ssnFallingEdge s = .next { s with port := { s.port with spi := .opened b s.port.response } } ∧
      s.sdoDrive = .highZ ∧ { s with port := { s.port with spi := .opened b s.port.response } }.sdoDrive = .driven ∧
      b.getLsbD 7 = s.port.request.isSome ∧ b.getLsbD 6 = s.port.response.isSome ∧ b.getLsbD 5 = s.port.collided ∧
      b.getLsbD 4 = decide (1 ≤ s.port.events.length) ∧
      b.getLsbD 3 = decide (s.cfg.triggerLevel ≤ s.port.events.length) ∧ b.getLsbD 2 = s.port.idleFlag ∧
      b.getLsbD 1 = decide (s.order.step = .inStep) ∧
      b.getLsbD 0 = decide (s.mem.state = .member ∨ s.mem.state = .leaving)) ∧
  ∀ s : State, s.sdoDrive = .driven ↔ s.power = .on ∧ ∃ status response, s.port.spi = .opened status response

/-- What happens at other blocks while a transaction is under way changes neither its latched status byte nor the
response it shows, nor what the part does to SDO. -/
def Obligations.OpenTransactionIsUndisturbed : Prop :=
  ∀ (c : Instr) (s t : State), exec c s = .next t →
    (∀ b k, c ≠ .transactionTake b k) → (∀ b k, c ≠ .statusRead b k) → c ≠ .nop → (∀ w, c ≠ .fetch w) →
    c ≠ .ssnFallingEdge → (∀ x h, c ≠ .powerOn x h) → (∀ x h, c ≠ .resetPin x h) → c ≠ .resetPinAsserted →
    c ≠ .powerLoss → t.port.spi = s.port.spi ∧ t.port.sdo = s.port.sdo ∧ t.sdoDrive = s.sdoDrive

/-- TRANSACTION_TAKE of two or more whole bytes that are no well-formed NOP or FETCH: dropped while BUSY, answered
BAD_FORM when malformed, and otherwise taken into the request buffer. COLLIDED clears when the shown status byte had it.
Byte 1 of a malformed FETCH is a free value (log 6). -/
def Obligations.TransactionIsDroppedRefusedOrTaken : Prop :=
  ∀ (s : State) (status : Byte) (resp : Option (List Byte)) (code len : Byte) (body : List Byte) (cut : Bool),
    s.power = .on → s.port.spi = .opened status resp →
    let wellFormed : Prop := cut = false ∧ body.length = len.toNat ∧ ∀ n, bodyLength code = some n → len.toNat = n
    ¬ (wellFormed ∧ (code = 0x00#8 ∨ code = 0x01#8)) →
    ∃ t, exec (.transactionTake (code :: len :: body) cut) s = .next t ∧
      t = { s with
            port := { s.port with
              spi := .ready, sdo := t.port.sdo, collided := t.port.collided, request := t.port.request
              response := t.port.response }
            freeCount := t.freeCount } ∧
      t.port.sdo.length = body.length + 2 ∧ t.port.sdo[0]? = some status ∧
      (code ≠ 0x01#8 → t.freeCount = s.freeCount ∧ t.port.sdo.drop 1 = List.replicate (body.length + 1) 0x00#8) ∧
      (s.port.request.isSome = true →
        t.port.collided = true ∧ t.port.request = s.port.request ∧ t.port.response = s.port.response) ∧
      (s.port.request = none →
        t.port.collided = (s.port.collided && !status.getLsbD 5) ∧
        (wellFormed → t.port.request = some { code := code, body := body } ∧ t.port.response = none) ∧
        (¬ wellFormed → t.port.request = none ∧ t.port.response = some [0x03#8, code, 0x05#8]))

/-- STATUS_READ and NOP: the status byte is shown, COLLIDED clears when that byte had it, and nothing else happens. The
transaction that a reset found under way is never taken, and only ends. That a second byte cut short leaves a status
read is DEDUCED (log 25). -/
def Obligations.StatusReadAndNopShowOnly : Prop :=
  ∀ (s : State) (first : Byte) (cut : Bool), s.power = .on →
    (∀ status resp, s.port.spi = .opened status resp →
      exec (.statusRead first cut) s = .next { s with port := { s.port with
        spi := .ready, sdo := [status], collided := s.port.collided && !status.getLsbD 5 } } ∧
      exec .nop s = .next { s with port := { s.port with
        spi := .ready, sdo := [status, 0x00#8], collided := s.port.collided && !status.getLsbD 5 } } ∧
      exec (.transactionTake [] cut) s = .next { s with port := { s.port with spi := .ready, sdo := [] } }) ∧
    (s.port.spi = .waitHigh →
      exec (.statusRead first cut) s = .next { s with port := { s.port with spi := .ready } } ∧
      exec .nop s = .next { s with port := { s.port with spi := .ready } })

/-- FETCH: the window shows the response as it stood at the fall of SSN, padded with 00h, and a window at least as long
as that response releases it. Byte 1 is a free value (log 6), and the statement says nothing of it. -/
def Obligations.FetchShowsAndReleasesTheResponse : Prop :=
  ∀ (s : State) (status : Byte) (resp : Option (List Byte)) (window : List Byte),
    s.power = .on → s.port.spi = .opened status resp → window.length ≤ 255 →
    ∃ t, exec (.fetch window) s = .next t ∧
      t = { s with
            port := { s.port with
              spi := .ready, sdo := t.port.sdo, response := t.port.response
              collided := s.port.collided && !status.getLsbD 5 }
            freeCount := t.freeCount } ∧
      t.port.sdo.length = window.length + 2 ∧ t.port.sdo[0]? = some status ∧
      (∀ i, i < window.length → t.port.sdo[i + 2]? = some (((resp.getD [])[i]?).getD 0x00#8)) ∧
      (∀ r, resp = some r → r.length ≤ window.length → t.port.response = none) ∧
      (∀ r, resp = some r → window.length < r.length → t.port.response = s.port.response) ∧
      (resp = none → t.port.response = s.port.response)

/-- The bytes of every request command are a well-formed transaction whose processing is that command. -/
def Obligations.RequestBytesReadBack : Prop :=
  ∀ (c : Instr) (r : Request), requestOf c = some r → c.wellFormed = true →
    commandOf r = c ∧ transactionWellFormed (r.code :: byteOf r.body.length :: r.body) false = true

/-! ### Requests -/

/-- A request answered with anything but OK leaves every block as it was, but for the host-check timer and the port's
buffers. -/
def Obligations.RefusedRequestsChangeNothing : Prop :=
  ∀ (c : Instr) (s t : State) (r : Request) (k : Byte), s.asksFor c r → exec c s = .next t →
    t.port.response = some [0x03#8, r.code, k] → k ≠ 0x00#8 →
    t = { s with
          slots := { s.slots with hostCheck := t.slots.hostCheck }
          port := { s.port with request := none, response := t.port.response } }

/-- Each request that is processed restarts a running or expired host-check timer with the full period, whatever the
answer. RESTART stops it, UNKNOWN leaves it, and an accepted START starts it when the period is not 0. -/
def Obligations.RequestsRestartTheHostCheck : Prop :=
  ∀ (c : Instr) (s t : State) (r : Request), s.asksFor c r → exec c s = .next t →
    (c = .restart → t.slots.hostCheck = .stopped) ∧
    (∀ k, c = .unknown k → t.slots.hostCheck = s.slots.hostCheck) ∧
    (c = .start → t.port.response = some [0x03#8, 0x11#8, 0x00#8] → s.cfg.hostCheckPeriod ≠ 0 →
      t.slots.hostCheck = .running s.cfg.hostCheckPeriod) ∧
    (c ≠ .restart → (∀ k, c ≠ .unknown k) →
      (c = .start → t.port.response ≠ some [0x03#8, 0x11#8, 0x00#8] ∨ s.cfg.hostCheckPeriod = 0) →
      (s.slots.hostCheck = .stopped → t.slots.hostCheck = .stopped) ∧
      (s.slots.hostCheck ≠ .stopped → t.slots.hostCheck = .running t.cfg.hostCheckPeriod))

/-- SETUP passes exactly when every field is in the range of R180 and every zone line passes R163 against the zone count
of the same SETUP. Accepted in IDLE: every field is replaced, the own digest recomputed, the zone lines reconfigured, the idle
timer given the new timeout. Refused with STATE when locked or outside IDLE, and with BAD_ARG when a field fails. That
an OFF line's polarity byte too is 00h or 01h is DEDUCED (log 10). -/
def Obligations.SetupReplacesTheConfiguration : Prop :=
  (∀ b : SetupBody, setupOk b = true ↔
    (1 ≤ b.zoneCount.toNat ∧ b.zoneCount.toNat ≤ 32) ∧ b.poolCapacity.toNat ≤ 1023 ∧
    (10 ≤ b.beatInterval.toNat ∧ b.beatInterval.toNat ≤ 1000) ∧
    (2 ≤ b.absenceLimit.toNat ∧ b.absenceLimit.toNat ≤ 15) ∧
    (b.hostCheckPeriod.toNat = 0 ∨ 10 ≤ b.hostCheckPeriod.toNat ∧ b.hostCheckPeriod.toNat ≤ 10000) ∧
    (1 ≤ b.triggerLevel.toNat ∧ b.triggerLevel.toNat ≤ 32) ∧
    ∀ l : LineNo, (b.lines[l]).mode.toNat ≤ 3 ∧ (b.lines[l]).polarity.toNat ≤ 1 ∧
      ((b.lines[l]).mode.toNat = 1 ∨ (b.lines[l]).mode.toNat = 3 → (b.lines[l]).zone.toNat < b.zoneCount.toNat)) ∧
  ∀ (s : State) (r : Request) (b : SetupBody), s.asksFor (.setup b) r →
    (s.mem.locked = true ∨ s.mem.state ≠ .idle →
      exec (.setup b) s = .next (s.answeredWith [0x03#8, 0x10#8, 0x02#8])) ∧
    (s.mem.locked = false → s.mem.state = .idle → setupOk b = false →
      exec (.setup b) s = .next (s.answeredWith [0x03#8, 0x10#8, 0x01#8])) ∧
    (s.mem.locked = false → s.mem.state = .idle → setupOk b = true →
      ∃ t, exec (.setup b) s = .next t ∧
        t = State.answeredWith
          { s with
            cfg := t.cfg
            mem := { s.mem with ownDigest := digestOf b.zoneCount.toNat b.poolCapacity.toNat b.beatInterval.toNat b.absenceLimit.toNat }
            zl := { s.zl with settled := t.zl.settled, qual := t.zl.qual }
            port := { s.port with idleTimer := t.port.idleTimer } }
          [0x03#8, 0x10#8, 0x00#8] ∧
        t.cfg.zoneCount = b.zoneCount.toNat ∧ t.cfg.poolCapacity = b.poolCapacity.toNat ∧
        t.cfg.beatInterval = b.beatInterval.toNat ∧ t.cfg.absenceLimit = b.absenceLimit.toNat ∧
        t.cfg.hostCheckPeriod = b.hostCheckPeriod.toNat ∧ t.cfg.triggerLevel = b.triggerLevel.toNat ∧
        t.cfg.idleTimeout = b.idleTimeout.toNat ∧
        (∀ l : LineNo,
          ((b.lines[l]).mode = 0x00#8 → (t.cfg.lines[l]).mode = .off) ∧
          ((b.lines[l]).mode = 0x01#8 → (t.cfg.lines[l]).mode = .grantOut) ∧
          ((b.lines[l]).mode = 0x02#8 → (t.cfg.lines[l]).mode = .memberOut) ∧
          ((b.lines[l]).mode = 0x03#8 → (t.cfg.lines[l]).mode = .releaseIn) ∧
          ((b.lines[l]).mode = 0x01#8 ∨ (b.lines[l]).mode = 0x03#8 → (t.cfg.lines[l]).zone = (b.lines[l]).zone.toNat) ∧
          ((b.lines[l]).mode ≠ 0x00#8 → ((t.cfg.lines[l]).polarity = .low ↔ (b.lines[l]).polarity = 0x01#8)) ∧
          (t.cfg.lines[l] = s.cfg.lines[l] → t.zl.settled[l] = s.zl.settled[l] ∧ t.zl.qual[l] = s.zl.qual[l]) ∧
          (t.cfg.lines[l] ≠ s.cfg.lines[l] → (t.cfg.lines[l]).mode = .releaseIn →
            t.zl.settled[l] = s.zl.pinIn[l]) ∧
          (t.cfg.lines[l] ≠ s.cfg.lines[l] → t.zl.qual[l] = .stopped)) ∧
        (b.idleTimeout = 0x00#8 → t.port.idleTimer = .stopped) ∧
        (b.idleTimeout ≠ 0x00#8 → s.port.events ≠ [] → s.port.idleFlag = false →
          t.port.idleTimer = .running b.idleTimeout.toNat) ∧
        (b.idleTimeout ≠ 0x00#8 → s.port.events = [] ∨ s.port.idleFlag = true →
          t.port.idleTimer = s.port.idleTimer))

/-- START accepted in IDLE without a strap fault: the configuration is locked and the station listens for one absence
time. Refused with STATE otherwise. -/
def Obligations.StartLocksAndListens : Prop :=
  ∀ (s : State) (r : Request), s.asksFor .start r →
    (s.mem.state ≠ .idle ∨ s.mem.strapFault = true →
      exec .start s = .next (s.answeredWith [0x03#8, 0x11#8, 0x02#8])) ∧
    (s.mem.state = .idle → s.mem.strapFault = false →
      ∃ t, exec .start s = .next t ∧ t.mem.state = .listening ∧ t.mem.locked = true ∧
        t.mem.listen = .running (s.cfg.absenceLimit * s.cfg.beatInterval) ∧
        t.order.step = .off ∧ t.order.expected = 0 ∧ t.order.lastHeard = none ∧ t.table = Table.empty ∧
        t.roster = Roster.empty ∧ t.pres = Presence.stopped ∧ t.cu = CatchUp.idle ∧
        t.port.events = (s.port.append s.cfg.idleTimeout
          { kind := .stationState, state := some .listening, cause := some (.cause .start) }).events ∧
        t.port.response = some [0x03#8, 0x11#8, 0x00#8] ∧ t.port.request = none ∧
        t.mem.number = s.mem.number ∧ t.mem.ownDigest = s.mem.ownDigest ∧ t.cfg = s.cfg ∧ t.line = s.line ∧
        t.slots.slots = s.slots.slots ∧ t.slots.queue = s.slots.queue ∧ t.zl = s.zl ∧
        t.port.counters = s.port.counters)

/-- RESTART: every block at its RESTART values; configuration, straps, own digest, counters and the transaction under way
stay, the configuration is unlocked, release inputs take the pin level, and OK waits. -/
def Obligations.RestartIsASoftReset : Prop :=
  ∀ (s : State) (r : Request), s.asksFor .restart r →
    ∃ t, exec .restart s = .next t ∧
      t = { State.reset with
            power := s.power, cfg := s.cfg
            mem := { State.reset.mem with
              number := s.mem.number, rate := s.mem.rate, strapFault := s.mem.strapFault
              ownDigest := s.mem.ownDigest }
            zl := { State.reset.zl with settled := t.zl.settled, pinIn := s.zl.pinIn }
            port := { State.reset.port with
              response := some [0x03#8, 0x12#8, 0x00#8], counters := s.port.counters, spi := s.port.spi
              sdo := s.port.sdo }
            freeCount := s.freeCount, pending := s.pending } ∧
      ∀ l : LineNo, (s.cfg.lines[l]).mode = .releaseIn → t.zl.settled[l] = s.zl.pinIn[l]

/-- ASK: refused with STATE outside MEMBER, with BAD_ARG when the range, the units or both fail, with NO_SLOT when every
slot is taken or has a purged entry; otherwise it opens the lowest open slot and queues its CLAIM. -/
def Obligations.AskOpensTheLowestSlot : Prop :=
  ∀ (s : State) (r : Request) (flags lo hi : Byte) (units hold : Half), s.asksFor (.ask flags lo hi units hold) r →
    let zones : Option Range := if flags.getLsbD 0 then some { lo := lo.toNat, hi := hi.toNat } else none
    let inRange : Prop := (flags.getLsbD 0 = true → lo.toNat ≤ hi.toNat ∧ hi.toNat < s.cfg.zoneCount) ∧
      units.toNat ≤ s.cfg.poolCapacity ∧ (flags.getLsbD 0 = true ∨ 0 < units.toNat)
    let isOpen (t : Tag) : Prop := (s.slots.slots[t]).state = .free ∧ ∀ e ∈ s.slots.queue, e.tag ≠ t
    (s.mem.state ≠ .member →
      exec (.ask flags lo hi units hold) s = .next (s.answeredWith [0x03#8, 0x20#8, 0x02#8])) ∧
    (s.mem.state = .member → ¬ inRange →
      exec (.ask flags lo hi units hold) s = .next (s.answeredWith [0x03#8, 0x20#8, 0x01#8])) ∧
    (s.mem.state = .member → inRange → (∀ t, ¬ isOpen t) →
      exec (.ask flags lo hi units hold) s = .next (s.answeredWith [0x03#8, 0x20#8, 0x03#8])) ∧
    (s.mem.state = .member → inRange → ∀ t, isOpen t → (∀ u, isOpen u → t ≤ u) →
      exec (.ask flags lo hi units hold) s = .next (State.answeredWith
        { s with slots := { s.slots with
            slots := s.slots.slots.set t
              { state := .pending, zones := zones, units := units.toNat, holdLimit := hold.toNat, admittedAt := none
                grantedAt := none, mark := .none, cause := none, holdTimer := .stopped }
            queue := s.slots.queue ++ [{ id := s.slots.nextId, kind := .claim, tag := t, purged := false }]
            nextId := s.slots.nextId + 1 } }
        [0x04#8, 0x20#8, 0x00#8, byteOf t.val]))

/-- FREE, by the state of its slot. -/
def Obligations.FreeGivesUpTheSlot : Prop :=
  ∀ (s : State) (r : Request) (tag : Byte), s.asksFor (.free tag) r →
    (7 < tag.toNat → exec (.free tag) s = .next (s.answeredWith [0x03#8, 0x21#8, 0x01#8])) ∧
    (tag.toNat ≤ 7 → s.mem.state ≠ .member → s.mem.state ≠ .leaving →
      exec (.free tag) s = .next (s.answeredWith [0x03#8, 0x21#8, 0x02#8])) ∧
    ∀ t : Tag, tag.toNat = t.val → s.mem.state = .member ∨ s.mem.state = .leaving →
      let x := s.slots.slots[t]
      let noTag := s.answeredWith [0x03#8, 0x21#8, 0x04#8]
      let refused := s.answeredWith [0x03#8, 0x21#8, 0x02#8]
      let ok (u : State) := u.answeredWith [0x03#8, 0x21#8, 0x00#8]
      let releasing := { x with state := .releasing, mark := .none, cause := some .host, holdTimer := .stopped }
      let queued (y : Slot) := { s with slots := { s.slots with
        slots := s.slots.slots.set t y
        queue := s.slots.queue ++ [{ id := s.slots.nextId, kind := .release, tag := t, purged := false }]
        nextId := s.slots.nextId + 1 } }
      let marked (y : Slot) := { s with slots := { s.slots with slots := s.slots.slots.set t y } }
      (x.state = .free → exec (.free tag) s = .next noTag) ∧
      (x.state = .pending → s.slotOnLine t = false →
        exec (.free tag) s = .next (ok (State.emit
          { s with slots := { s.slots with
              slots := s.slots.slots.set t Slot.empty
              queue := s.slots.queue.filter fun e => decide (e.tag ≠ t) || e.purged } }
          { kind := .freed, tag := some t, cause := some (.cause .notSent) }))) ∧
      (x.state = .pending → s.slotOnLine t = true → x.mark ≠ .releaseAfter →
        exec (.free tag) s = .next (ok (marked { x with mark := .releaseAfter, cause := some .host }))) ∧
      (x.state = .pending → s.slotOnLine t = true → x.mark = .releaseAfter →
        exec (.free tag) s = .next refused) ∧
      (x.state = .waiting → exec (.free tag) s = .next (ok (queued releasing))) ∧
      (x.state = .held → s.slots.entryOf t = none → exec (.free tag) s = .next (ok (queued releasing))) ∧
      (x.state = .held → s.slots.entryOf t ≠ none →
        exec (.free tag) s = .next (ok (marked { releasing with mark := .releaseAfter }))) ∧
      (x.state = .cancelling → s.slotOnLine t = false →
        exec (.free tag) s = .next (ok { s with slots := { s.slots with
          slots := s.slots.slots.set t releasing
          queue := s.slots.queue.map fun e =>
            if e.tag = t ∧ e.purged = false then { e with kind := .release } else e } })) ∧
      (x.state = .cancelling → s.slotOnLine t = true → x.mark ≠ .releaseAfter →
        exec (.free tag) s = .next (ok (marked { x with mark := .releaseAfter, cause := some .host }))) ∧
      (x.state = .cancelling → s.slotOnLine t = true → x.mark = .releaseAfter →
        exec (.free tag) s = .next refused) ∧
      (x.state = .releasing → exec (.free tag) s = .next refused)

/-- CANCEL, by the state of its slot: it never touches a held claim. -/
def Obligations.CancelDropsAnUngrantedClaim : Prop :=
  ∀ (s : State) (r : Request) (tag : Byte), s.asksFor (.cancel tag) r →
    (7 < tag.toNat → exec (.cancel tag) s = .next (s.answeredWith [0x03#8, 0x22#8, 0x01#8])) ∧
    (tag.toNat ≤ 7 → s.mem.state ≠ .member → s.mem.state ≠ .leaving →
      exec (.cancel tag) s = .next (s.answeredWith [0x03#8, 0x22#8, 0x02#8])) ∧
    ∀ t : Tag, tag.toNat = t.val → s.mem.state = .member ∨ s.mem.state = .leaving →
      let x := s.slots.slots[t]
      let refused := s.answeredWith [0x03#8, 0x22#8, 0x02#8]
      let ok (u : State) := u.answeredWith [0x03#8, 0x22#8, 0x00#8]
      (x.state = .free → exec (.cancel tag) s = .next (s.answeredWith [0x03#8, 0x22#8, 0x04#8])) ∧
      (x.state = .pending → s.slotOnLine t = false →
        exec (.cancel tag) s = .next (ok (State.emit
          { s with slots := { s.slots with
              slots := s.slots.slots.set t Slot.empty
              queue := s.slots.queue.filter fun e => decide (e.tag ≠ t) || e.purged } }
          { kind := .withdrawn, tag := some t, cause := some (.cause .notSent) }))) ∧
      (x.state = .pending → s.slotOnLine t = true → x.mark = .none →
        exec (.cancel tag) s = .next (ok { s with slots := { s.slots with
          slots := s.slots.slots.set t { x with mark := .cancelAfter } } })) ∧
      (x.state = .pending → s.slotOnLine t = true → x.mark ≠ .none → exec (.cancel tag) s = .next refused) ∧
      (x.state = .waiting →
        exec (.cancel tag) s = .next (ok { s with slots := { s.slots with
          slots := s.slots.slots.set t { x with state := .cancelling }
          queue := s.slots.queue ++ [{ id := s.slots.nextId, kind := .withdraw, tag := t, purged := false }]
          nextId := s.slots.nextId + 1 } })) ∧
      (x.state = .held ∨ x.state = .cancelling ∨ x.state = .releasing → exec (.cancel tag) s = .next refused)

/-- SURRENDER: refused with STATE outside MEMBER and LEAVING; otherwise FREE acts on the slots one by one in tag order with
cause SURRENDER. Slot by slot: a PENDING slot ends, not sent, or is marked while its CLAIM is on the line; WAITING and
HELD slots go RELEASING, a HELD one whose overtaken WITHDRAW still stands with the mark; a CANCELLING slot goes
RELEASING, or is marked; FREE, RELEASING and marked slots stay. No slot is left HELD or WAITING and no zone covered; table,
roster and order stay. -/
def Obligations.SurrenderGivesUpEverySlot : Prop :=
  ∀ (s : State) (r : Request), s.asksFor .surrender r →
    (s.mem.state ≠ .member → s.mem.state ≠ .leaving →
      exec .surrender s = .next (s.answeredWith [0x03#8, 0x23#8, 0x02#8])) ∧
    (s.mem.state = .member ∨ s.mem.state = .leaving →
      ∃ t, exec .surrender s = .next t ∧
        t = State.answeredWith ((List.finRange 8).foldl (fun u k => (u.freeSlot k .surrender).1) s)
          [0x03#8, 0x23#8, 0x00#8] ∧
        (∀ k : Tag,
          let x := s.slots.slots[k]
          let y := t.slots.slots[k]
          let releasing : Slot :=
            { x with state := .releasing, mark := .none, cause := some .surrender, holdTimer := .stopped }
          let marked : Slot := { x with mark := .releaseAfter, cause := some .surrender }
          y.state ≠ .held ∧ y.state ≠ .waiting ∧
          (x.state = .waiting ∨ x.state = .held ∧ s.slots.entryOf k = none → y = releasing) ∧
          (x.state = .held → s.slots.entryOf k ≠ none → y = { releasing with mark := .releaseAfter }) ∧
          (x.state = .pending → s.slotOnLine k = false → y = Slot.empty) ∧
          (x.state = .cancelling → s.slotOnLine k = false → y = releasing) ∧
          (x.state = .pending ∨ x.state = .cancelling → s.slotOnLine k = true → x.mark ≠ .releaseAfter → y = marked) ∧
          (x.state = .pending ∨ x.state = .cancelling → s.slotOnLine k = true → x.mark = .releaseAfter → y = x) ∧
          (x.state = .free ∨ x.state = .releasing → y = x)) ∧
        (∀ z, t.covers z = false) ∧
        t.table = s.table ∧ t.roster = s.roster ∧ t.order = s.order ∧ t.mem = s.mem ∧ t.pres = s.pres ∧ t.cu = s.cu ∧
        t.line = s.line ∧ t.zl = s.zl ∧ t.cfg = s.cfg)

/-- REJOIN leaves DETACHED, REFUSED and ISOLATED for LISTENING, and is refused with STATE elsewhere.
DEPART accepted by a MEMBER in step: LEAVING with a LEAVE pending, beat timer, BEAT pending and evict flags gone,
outputs down; slots and send queue stay. Refused with STATE otherwise. -/
def Obligations.DepartQueuesALeaveAndRejoinListens : Prop :=
  (∀ (s : State) (r : Request), s.asksFor .rejoin r →
    let out : Prop := s.mem.state = .detached ∨ s.mem.state = .refused ∨ s.mem.state = .isolated
    (¬ out → exec .rejoin s = .next (s.answeredWith [0x03#8, 0x31#8, 0x02#8])) ∧
    (out →
      exec .rejoin s = .next (State.answeredWith (State.emit
        { s with
          mem := { s.mem with
            state := .listening, listen := .running (s.cfg.absenceLimit * s.cfg.beatInterval)
            pendingFound := false, pendingJoin := false, pendingLeave := false }
          order :=
            { step := .off, expected := 0, lastHeard := none, rxRun := 0, ownRun := 0, ownRunOf := none }
          table := Table.empty, roster := Roster.empty, pres := Presence.stopped, cu := CatchUp.idle }
        { kind := .stationState, state := some .listening, cause := some (.cause .rejoin) })
        [0x03#8, 0x31#8, 0x00#8]))) ∧
  ∀ (s : State) (r : Request), s.asksFor .depart r →
    (¬ (s.mem.state = .member ∧ s.order.step = .inStep) →
      exec .depart s = .next (s.answeredWith [0x03#8, 0x30#8, 0x02#8])) ∧
    (s.mem.state = .member → s.order.step = .inStep →
      ∃ t, exec .depart s = .next t ∧
        t = State.answeredWith (State.emit
          { s with
            mem := { s.mem with state := .leaving, pendingLeave := true }
            pres := { beat := .stopped, beatPending := false, absence := t.pres.absence } }
          { kind := .stationState, state := some .leaving, cause := some (.cause .depart) })
          [0x03#8, 0x30#8, 0x00#8] ∧
        (∀ n : StationNo,
          (s.pres.absence[n] = .expired → t.pres.absence[n] = .running (s.cfg.absenceLimit * s.cfg.beatInterval)) ∧
          (s.pres.absence[n] ≠ .expired → t.pres.absence[n] = s.pres.absence[n])) ∧
        ∀ l : LineNo, t.lineAsserted l ≠ some true)

/-- STATUS answers the status record and changes nothing else. -/
def Obligations.StatusAnswersTheRecord : Prop :=
  ∀ (s : State) (r : Request), s.asksFor .status r →
    exec .status s = .next (s.answeredWith ([28#8, 0x40#8, 0x00#8] ++ s.statusRecord)) ∧
    s.statusRecord.length = 25 ∧
    s.statusRecord[0]? = some (stationByte s.mem.number) ∧
    (∃ b : Byte, s.statusRecord[1]? = some b ∧ b.getLsbD 0 = s.mem.strapFault ∧ b.getLsbD 1 = s.line.stuck ∧
      b.getLsbD 2 = s.roster.digest.isSome ∧ ∀ i, 3 ≤ i → b.getLsbD i = false) ∧
    s.statusRecord[2]? = some (match s.mem.rate with
      | .k125 => 0x00#8
      | .k250 => 0x01#8
      | .k500 => 0x02#8
      | .k1000 => 0x03#8) ∧
    s.statusRecord[3]? = some s.mem.state.code ∧ s.statusRecord[4]? = some s.order.step.code ∧
    (s.statusRecord.drop 5).take 2 = halfBytes s.order.expected ∧
    (s.statusRecord.drop 7).take 2 = halfBytes s.roster.word ∧
    s.statusRecord[9]? = some (stationByte s.roster.reference) ∧
    (s.statusRecord.drop 10).take 2 = halfBytes s.mem.ownDigest ∧
    (s.statusRecord.drop 12).take 2 = halfBytes (s.roster.digest.getD 0) ∧
    (∀ t : Tag, s.statusRecord[14 + t.val]? = some (s.slots.slots[t]).state.code) ∧
    s.statusRecord[22]? = some (byteOf s.port.events.length) ∧ s.statusRecord[23]? = some s.cu.phase.code ∧
    s.statusRecord[24]? = some (byteOf s.cu.attempts)

/-- VIEW sets the cursor, or is refused with BAD_ARG when a code names nothing.
READ answers the entries from the cursor's index on, one for each index that has one, up to the count; the end marker
stands in place of the first that has none; auto-advance moves the index by the entries returned. The entries' bytes are
given field by field. That lo and hi of a FREE slot's entry read 0 is DEDUCED (log 27). -/
def Obligations.ViewSetsTheCursorAndReadFollowsIt : Prop :=
  (∀ (s : State) (r : Request) (code index auto : Byte), s.asksFor (.view code index auto) r →
    (2 < code.toNat ∨ 1 < auto.toNat →
      exec (.view code index auto) s = .next (s.answeredWith [0x03#8, 0x41#8, 0x01#8])) ∧
    (auto.toNat ≤ 1 → ∀ v : View,
      (code = 0x00#8 ∧ v = .table ∨ code = 0x01#8 ∧ v = .roster ∨ code = 0x02#8 ∧ v = .slots) →
      exec (.view code index auto) s = .next (State.answeredWith
        { s with port := { s.port with cursor :=
            { view := v, index := index.toNat, auto := decide (auto = 0x01#8) } } }
        [0x03#8, 0x41#8, 0x00#8]))) ∧
  (∀ (s : State) (r : Request) (count : Byte), s.asksFor (.read count) r →
    (count.toNat = 0 ∨ 4 < count.toNat →
      exec (.read count) s = .next (s.answeredWith [0x03#8, 0x42#8, 0x01#8])) ∧
    (1 ≤ count.toNat → count.toNat ≤ 4 →
      let entries := match s.port.cursor.view with
        | .table => s.table.records.length
        | .roster => 16
        | .slots => 8
      let k := min count.toNat (entries - s.port.cursor.index)
      let index' := if s.port.cursor.auto then s.port.cursor.index + k else s.port.cursor.index
      let shown := (List.range k).flatMap fun i =>
        (s.viewEntry s.port.cursor.view (s.port.cursor.index + i)).getD []
      let marker := if k < count.toNat then [0xFF#8] else []
      let readSeq : List Byte :=
        if s.order.step = .off then [0x00#8, 0x00#8, 0x00#8] else 0x01#8 :: halfBytes (s.order.expected - 1)
      let data := readSeq ++ [s.port.cursor.view.code, byteOf index'] ++ shown ++ marker
      exec (.read count) s = .next (State.answeredWith
        { s with port := { s.port with cursor := { s.port.cursor with index := index' } } }
        ([byteOf (3 + data.length), 0x42#8, 0x00#8] ++ data)))) ∧
  (∀ (s : State) (i : Nat) (r : Record), s.table.records[i]? = some r →
    ∃ flags lo hi, s.viewEntry .table i = some
        ([byteOf i, byteOf r.owner.val, byteOf r.tag.val, flags, lo, hi] ++ halfBytes (BitVec.ofNat 16 r.units) ++
          halfBytes r.admittedAt ++ halfBytes (r.grantedAt.getD 0)) ∧
      flags.getLsbD 0 = r.zones.isSome ∧ flags.getLsbD 1 = decide (r.state = .held) ∧
      flags.getLsbD 2 = r.grantedAt.isSome ∧ (∀ k, 3 ≤ k → flags.getLsbD k = false) ∧
      (∀ g, r.zones = some g → lo = byteOf g.lo ∧ hi = byteOf g.hi) ∧ (r.zones = none → lo = 0xFF#8 ∧ hi = 0xFF#8)) ∧
  (∀ (s : State) (n : StationNo),
    ∃ flags, s.viewEntry .roster n.val = some ([byteOf n.val, flags] ++
        halfBytes (((s.roster.members[n]).map Member.joinedAt).getD 0) ++
        halfBytes (((s.roster.members[n]).map Member.lastTaken).getD 0)) ∧
      flags.getLsbD 0 = s.roster.isMember n ∧ flags.getLsbD 1 = decide (s.roster.reference = some n) ∧
      ∀ k, 2 ≤ k → flags.getLsbD k = false) ∧
  ∀ (s : State) (t : Tag),
    let x := s.slots.slots[t]
    (x.state = .free → s.viewEntry .slots t.val = some (byteOf t.val :: List.replicate 16 0x00#8)) ∧
    (x.state ≠ .free →
      ∃ state flags lo hi mark kind, s.viewEntry .slots t.val = some
          ([byteOf t.val, state, flags, lo, hi] ++ halfBytes (BitVec.ofNat 16 x.units) ++
            halfBytes (BitVec.ofNat 16 x.holdLimit) ++ halfBytes (x.admittedAt.getD 0) ++
            halfBytes (x.grantedAt.getD 0) ++ [mark, kind] ++ halfBytes (BitVec.ofNat 16 x.holdLeft)) ∧
        state = x.state.code ∧ flags.getLsbD 0 = x.zones.isSome ∧ flags.getLsbD 1 = x.admittedAt.isSome ∧
        flags.getLsbD 2 = x.grantedAt.isSome ∧ flags.getLsbD 3 = s.slotOnLine t ∧
        (∀ k, 4 ≤ k → flags.getLsbD k = false) ∧
        (∀ g, x.zones = some g → lo = byteOf g.lo ∧ hi = byteOf g.hi) ∧ (x.zones = none → lo = 0xFF#8 ∧ hi = 0xFF#8) ∧
        (x.mark = .none → mark = 0x00#8) ∧ (x.mark = .releaseAfter → mark = 0x01#8) ∧
        (x.mark = .cancelAfter → mark = 0x02#8) ∧ (s.slots.entryOf t = none → kind = 0x00#8) ∧
        (∀ e, s.slots.entryOf t = some e → (e.kind = .claim → kind = 0x01#8) ∧ (e.kind = .release → kind = 0x02#8) ∧
          (e.kind = .withdraw → kind = 0x03#8)) ∧
        (x.state ≠ .held ∨ x.holdTimer = .stopped → x.holdLeft = 0) ∧
        (∀ left, x.state = .held → x.holdTimer = .running left → x.holdLeft = left))

/-- TAKE removes the oldest records, answers the depth left and the records, and re-evaluates the idle timer and flag. A
record is nine bytes, laid out field by field, with the codes of its kind and cause. -/
def Obligations.TakeRemovesTheOldestEvents : Prop :=
  (∀ (s : State) (r : Request) (count : Byte), s.asksFor (.take count) r →
    (count.toNat = 0 ∨ 4 < count.toNat →
      exec (.take count) s = .next (s.answeredWith [0x03#8, 0x43#8, 0x01#8])) ∧
    (1 ≤ count.toNat → count.toNat ≤ 4 →
      let out := s.port.events.take count.toNat
      let left := s.port.events.drop count.toNat
      let data := [byteOf left.length, byteOf out.length] ++ out.flatMap Event.bytes
      ∃ t, exec (.take count) s = .next t ∧
        t = State.answeredWith
          { s with port := { s.port with
              events := left, idleTimer := t.port.idleTimer, idleFlag := t.port.idleFlag } }
          ([byteOf (3 + data.length), 0x43#8, 0x00#8] ++ data) ∧
        (left = [] → t.port.idleFlag = false ∧ t.port.idleTimer = .stopped) ∧
        (left ≠ [] → t.port.idleFlag = s.port.idleFlag) ∧
        (left ≠ [] → s.port.idleFlag = true → t.port.idleTimer = s.port.idleTimer) ∧
        (left ≠ [] → s.port.idleFlag = false → s.cfg.idleTimeout ≠ 0 →
          t.port.idleTimer = .running s.cfg.idleTimeout))) ∧
  (∀ e : Event, ∃ kind flags tag station state cause count,
    e.bytes = [kind, flags] ++ halfBytes (e.seq.getD 0) ++ [tag, station, state, cause, count] ∧
    kind = e.kind.code ∧
    flags.getLsbD 0 = e.seq.isSome ∧ flags.getLsbD 1 = e.tag.isSome ∧ flags.getLsbD 2 = e.station.isSome ∧
    flags.getLsbD 3 = e.state.isSome ∧ flags.getLsbD 4 = e.cause.isSome ∧ flags.getLsbD 5 = e.count.isSome ∧
    (∀ k, 6 ≤ k → flags.getLsbD k = false) ∧
    tag = (e.tag.map fun t => byteOf t.val).getD 0x00#8 ∧ station = (e.station.map fun n => byteOf n.val).getD 0x00#8 ∧
    state = (e.state.map StationState.code).getD 0x00#8 ∧ count = (e.count.map byteOf).getD 0x00#8 ∧
    (e.cause = none → cause = 0x00#8) ∧ (∀ c, e.cause = some (.cause c) → cause = c.code) ∧
    ∀ k, e.cause = some (.kind k) → cause = byteOf k.code) ∧
  [EventKind.admitted, .granted, .refused, .freed, .withdrawn, .tooLate, .lost, .holdExpired, .hostSilent, .stationState,
    .peerIn, .peerOut, .peerRefused, .mismatch, .duplicate, .catchupFail, .lineStuck, .lineClear, .overflow].map
      EventKind.code = (List.range 19).map (fun i => byteOf (i + 1)) ∧
  [Cause.host, .hold, .line, .surrender, .left, .notSent, .gone, .evicted, .removed, .adopted, .dissolved, .duplicate,
    .catchup, .config, .resync, .range, .full, .start, .listenTimeout, .heard, .founded, .foundVetoed, .joined, .depart,
    .rejoin, .new, .renewed, .request, .timeout, .part, .gap, .check].map Cause.code =
      (List.range 32).map (fun i => byteOf (i + 1))

/-- UNKNOWN places its response and does nothing else, not even to the host-check timer.
TALLY answers the 28 counters as they stood and sets each to 0. -/
def Obligations.TallyZeroesAndUnknownOnlyAnswers : Prop :=
  (∀ (s : State) (r : Request) (code : Byte), s.asksFor (.unknown code) r →
    exec (.unknown code) s = .next
      { s with port := { s.port with request := none, response := some [0x03#8, code, 0x06#8] } }) ∧
  ∀ (s : State) (r : Request), s.asksFor .tally r →
    ∃ t, exec .tally s = .next t ∧
      t = State.answeredWith { s with port := { s.port with counters := t.port.counters } }
        ([59#8, 0x44#8, 0x00#8] ++ s.port.counters.toList.flatMap halfBytes) ∧
      (∀ k : Fin 28, t.port.counters[k] = 0) ∧
      ∀ k : Fin 28, ((s.port.counters.toList.flatMap halfBytes).drop (2 * k.val)).take 2 = halfBytes s.port.counters[k]

/-! ### The line -/

/-- LINE_SETTLED, LINE_STUCK and LINE_CLEAR carry the levels read in SETTLING or STUCK. SETTLING becomes QUIET with an
unbroken idle gap, STUCK with more than 64 unbroken dominant bit times, and STUCK becomes QUIET with an unbroken idle gap;
with levels that complete neither the view stays, and a dominant one starts the gap anew. LINE_FRAME_START begins a frame.
FRAME_BROKEN, at the sixth dominant level in a row, drops the frame, counts a check failure and settles the line; an own
attempt of any source that had ended FAULT takes its outcome there (DEDUCED, log 16). The levels are the model's operands,
and the breaking one the first dominant one of SETTLING (log 14). -/
def Obligations.LineViewMovesWithTheLine : Prop :=
  ∀ s : State, s.power = .on →
    let quiet : LineIf := { s.line with view := .quiet, quietBits := 11, dominantBits := 0 }
    (∀ levels, s.line.quietBits ≤ 11 → s.line.dominantBits ≤ 65 → s.line.quietBits = 0 ∨ s.line.dominantBits = 0 →
      let gapInTurn : Prop := ∀ i : Fin levels.length, s.line.hasGap (levels.take i.val) → levels[i] = true
      let stuckInTurn : Prop := ∀ i : Fin levels.length, s.line.hasStuck (levels.take i.val) → levels[i] = false
      let counted : State := { s with line := s.line.counting levels }
      (s.line.view = .settling →
        (gapInTurn → stuckInTurn → s.line.hasGap levels → exec (.lineSettled levels) s = .next { s with line := quiet }) ∧
        (gapInTurn → stuckInTurn → ¬ s.line.hasGap levels → exec (.lineSettled levels) s = .next counted) ∧
        (gapInTurn → stuckInTurn → s.line.hasStuck levels → exec (.lineStuck levels) s = .next (State.emit
          { s with line := { s.line with view := .stuck, quietBits := 0, dominantBits := 0, stuck := true } }
          { kind := .lineStuck })) ∧
        (gapInTurn → stuckInTurn → ¬ s.line.hasStuck levels → exec (.lineStuck levels) s = .next counted) ∧
        (¬ (gapInTurn ∧ stuckInTurn) →
          exec (.lineSettled levels) s = .next s ∧ exec (.lineStuck levels) s = .next s)) ∧
      (s.line.view = .stuck →
        (gapInTurn → s.line.hasGap levels → exec (.lineClear levels) s = .next (State.emit
          { s with line := { quiet with stuck := false } } { kind := .lineClear })) ∧
        (gapInTurn → ¬ s.line.hasGap levels → exec (.lineClear levels) s = .next counted) ∧
        (¬ gapInTurn → exec (.lineClear levels) s = .next s))) ∧
    (∀ levels, s.line.view = .quiet → s.line.tx = .idle → exec (.lineFrameStart levels) s = .next
      { s with line := { s.line with view := .frame, quietBits := 0, rx := some (false :: levels) } }) ∧
    (∀ read levels, s.receives read → endsAtRunOf false (read ++ levels) = true →
      let broken := State.bump { s with line := { s.line with
        view := .settling, quietBits := 0, dominantBits := 1, rx := none, faulted := none } } .checkFailures
      (s.line.faulted = none → exec (.frameBroken levels) s = .next broken) ∧
      (∀ fa, s.line.faulted = some fa →
        ∃ t, exec (.frameBroken levels) s = .next t ∧ broken.returnsFault t fa.attempt))

/-- ATTEMPT_START with the gap counted: a copy of the chosen frame goes on the line, with this station's number, the seq
that R30 gives and the body its source holds. With nothing eligible the bit times are counted up to the gap (the operand is the
model's, log 14). -/
def Obligations.AttemptStartFixesACopy : Prop :=
  ∀ (s : State) (bits : Nat), s.power = .on → s.line.view = .quiet → s.line.tx = .idle →
    11 ≤ s.line.quietBits + bits → ∀ me : StationNo, s.mem.number = some me →
    (s.choose = none → exec (.attemptStart bits) s = .next { s with line := { s.line with quietBits := 11 } }) ∧
    (∀ src b, s.choose = some src → s.sourceBody src = some b →
      let seq : Seq := match src with
        | .snap _ => (s.cu.serve.map Serve.base).getD 0
        | _ => if s.order.step = .behind then s.order.lastHeard.getD 0 + 1 else s.order.expected
      let newFrame : Bool := decide (s.order.step = .inStep ∧ s.order.ownRunOf ≠ some src)
      exec (.attemptStart bits) s = .next
        { s with
          line := { s.line with
            view := .frame, quietBits := 0, rx := some []
            tx := .offering { source := src, frame := { sender := me, seq := seq, body := b } } }
          order := { s.order with
            ownRun := if newFrame then 0 else s.order.ownRun
            ownRunOf := if newFrame then some src else s.order.ownRunOf } } ∧
      (src = .leave → b = .leave) ∧ (∀ x, src = .evict x → b = .evict (byteOf x.val)) ∧ (src = .syncreq → b = .syncreq) ∧
      (src = .found → b = .found s.mem.ownDigest) ∧ (src = .join → b = .join s.mem.ownDigest) ∧
      (src = .beat → b = .beat (fingerprintOf s.roster.digest s.roster.word s.table.inUse s.table.records)) ∧
      (∀ id k e, src = .queue id k → s.slots.queue.find? (fun q => q.id = id) = some e →
        let x := s.slots.slots[e.tag]
        let units : Half := BitVec.ofNat 16 x.units
        (e.kind = .release → b = .release (byteOf e.tag.val)) ∧
        (e.kind = .withdraw → b = .withdraw (byteOf e.tag.val)) ∧
        (e.kind = .claim → ∀ g, x.zones = some g →
          b = .claim (byteOf e.tag.val) true (byteOf g.lo) (byteOf g.hi) units) ∧
        (e.kind = .claim → x.zones = none → b = .claim (byteOf e.tag.val) false 0xFF#8 0xFF#8 units)) ∧
      (∀ i v c, src = .snap i → s.cu.serve = some v → s.cu.buffer = some c →
        (v.index = 0 → b = .snapHeader (byteOf v.requester.val) (byteOf v.count) (c.digest.getD 0) c.members
          (BitVec.ofNat 16 c.inUse) c.fingerprint c.lastTaken) ∧
        (v.index ≠ 0 → ∃ r p, c.records[v.index - 1]? = some r ∧
          b = .snapRecord (byteOf v.requester.val) (byteOf v.index) (byteOf v.count) p ∧
          p.owner = byteOf r.owner.val ∧ p.tag = byteOf r.tag.val ∧ p.zonesPresent = r.zones.isSome ∧
          p.held = decide (r.state = .held) ∧ p.grantedPresent = r.grantedAt.isSome ∧
          (∀ g, r.zones = some g → p.lo = byteOf g.lo ∧ p.hi = byteOf g.hi) ∧
          (r.zones = none → p.lo = 0xFF#8 ∧ p.hi = 0xFF#8) ∧ p.units = BitVec.ofNat 16 r.units ∧
          p.admittedAt = r.admittedAt ∧ p.grantedAt = r.grantedAt.getD 0)))

/-- The local order of the sources, by step state and station state. -/
def Obligations.SourcesAreChosenInTheLocalOrder : Prop :=
  ∀ s : State,
    (s.order.step = .off →
      s.choose = if s.mem.state = .founding ∧ s.mem.pendingFound = true then some .found else none) ∧
    (s.order.step = .behind →
      s.choose = if s.cu.syncreqPending = true ∧ s.order.lastHeard ≠ none then some .syncreq else none) ∧
    (s.order.step = .inStep →
      let noLeave : Prop := s.mem.pendingLeave = false
      let noEvict : Prop := s.mem.state ≠ .member ∨ ∀ n : StationNo, s.pres.evictFlag n = false
      let noRelease : Prop := ∀ e rest, s.slots.queue = e :: rest → e.kind = .claim
      let noSnap : Prop := s.cu.serve = none
      let noJoin : Prop := s.mem.pendingJoin = false ∨ s.mem.state ≠ .joining
      (s.mem.pendingLeave = true → s.choose = some .leave) ∧
      (noLeave → s.mem.state = .member → ∀ n : StationNo, s.pres.evictFlag n = true →
        (∀ k : StationNo, s.pres.evictFlag k = true → n ≤ k) → s.choose = some (.evict n)) ∧
      (noLeave → noEvict → ∀ e rest, s.slots.queue = e :: rest → e.kind ≠ .claim →
        s.choose = some (.queue e.id e.kind)) ∧
      (noLeave → noEvict → noRelease → ∀ v, s.cu.serve = some v → s.choose = some (.snap v.index)) ∧
      (noLeave → noEvict → noRelease → noSnap → s.mem.pendingJoin = true → s.mem.state = .joining →
        s.choose = some .join) ∧
      (noLeave → noEvict → noSnap → noJoin → ∀ e rest, s.slots.queue = e :: rest → e.kind = .claim →
        s.choose = some (.queue e.id .claim)) ∧
      (noLeave → noEvict → noSnap → noJoin → s.slots.queue = [] →
        s.choose = if s.pres.beatPending = true ∧ s.mem.state = .member then some .beat else none))

/-- ATTEMPT_LOST, where recessive was sent and dominant read no later than the arbitration field's last bit: the loss is
counted, the bits read are kept, and the frame goes back to its source; a marked CLAIM ends there, not sent, and a
WITHDRAW that was overtaken or marked gives way. ATTEMPT_FAULT, at any other bit that differs, stops the transmitter and keeps
the outcome for the end of the frame (DEDUCED, log 16; in the last bit of the delimiter a DESIGN CHOICE, log 30). FRAME_OUTCOME
with a FAULT kept hands it to its source, whatever its source is, after all that the slot's reading does without it; where that
frame settles own slots, OwnReleaseWithdrawAndGrantSettleTheSlot says how. After the remains of an own FAULT, and after a SNAP,
the slot's reading does nothing else than end the frame. -/
def Obligations.LostAndFaultedAttempts : Prop :=
  (∀ (s : State) (others : List Bool), s.power = .on → s.line.awaiting = .snapPart ∨ s.line.awaiting = .ownRemains →
    (s.line.slotAfter others).length = 3 →
    let ended : State := { s with line := s.line.afterOutcome }
    (s.line.faulted = none → exec (.frameOutcome others) s = .next ended) ∧
    (∀ fa, s.line.faulted = some fa → ∃ t, exec (.frameOutcome others) s = .next t ∧ ended.returnsFault t fa.attempt)) ∧
  (∀ (s u : State) (r : Received) (v : Vote) (others : List Bool) (b8 b9 : Bool) (fa : Faulted),
    s.readsSlot r v others b8 b9 → s.line.faulted = some fa →
    exec (.frameOutcome others) { s with line := { s.line with faulted := none } } = .next u →
    u.slots = s.slots ∨ u.mem.state ≠ s.mem.state →
    ∃ t, exec (.frameOutcome others) s = .next t ∧ u.returnsFault t fa.attempt) ∧
  ∀ (s : State) (a : Attempt) (read levels : List Bool) (n : Nat), s.power = .on → s.line.rx = some read →
    (s.line.tx = .offering a → read ++ levels = a.frame.levels.take n ++ [false] → a.frame.levels[n]? = some true →
      n < a.frame.arbitration →
      let lost := State.bump { s with line := { s.line with tx := .idle, rx := some (read ++ levels) } } .arbitrationLosses
      ((∀ id k, a.source ≠ .queue id k) → exec (.attemptLost levels) s = .next lost) ∧
      (∀ id k e, a.source = .queue id k → s.slots.queue.find? (fun q => q.id = id) = some e →
        let x := s.slots.slots[e.tag]
        let without := s.slots.queue.filter fun q => decide (q.tag ≠ e.tag) || q.purged
        let ended := { lost with slots := { s.slots with slots := s.slots.slots.set e.tag Slot.empty, queue := without } }
        (e.purged = true → exec (.attemptLost levels) s = .next
          { lost with slots := { s.slots with queue := s.slots.queue.filter fun q => decide (q.id ≠ id) } }) ∧
        (e.purged = false → e.kind = .claim →
          (x.mark = .none → exec (.attemptLost levels) s = .next lost) ∧
          (x.mark = .releaseAfter → exec (.attemptLost levels) s = .next (ended.emit
            { kind := .freed, tag := some e.tag, cause := some (.cause .notSent) })) ∧
          (x.mark = .cancelAfter → exec (.attemptLost levels) s = .next (ended.emit
            { kind := .withdrawn, tag := some e.tag, cause := some (.cause .notSent) }))) ∧
        (e.purged = false → e.kind = .release → exec (.attemptLost levels) s = .next lost) ∧
        (e.purged = false → e.kind = .withdraw →
          (x.state = .cancelling → x.mark ≠ .releaseAfter → exec (.attemptLost levels) s = .next lost) ∧
          (x.state = .cancelling ∨ x.state = .releasing → x.mark = .releaseAfter →
            exec (.attemptLost levels) s = .next { lost with slots := { s.slots with
              slots := s.slots.slots.set e.tag { x with state := .releasing, mark := .none, holdTimer := .stopped }
              queue := s.slots.queue.map fun q =>
                if q.tag = e.tag ∧ q.purged = false then { q with kind := .release } else q } }) ∧
          (x.state = .held → exec (.attemptLost levels) s = .next (State.emit
            { lost with slots := { s.slots with
                slots := s.slots.slots.set e.tag { x with mark := .none }, queue := without } }
            { kind := .tooLate, tag := some e.tag }))))) ∧
    (∀ level : Bool, read ++ levels = a.frame.levels.take n ++ [level] → a.frame.levels[n]? = some (!level) →
      s.line.tx = .sending a ∨ s.line.tx = .offering a ∧ (level = true ∨ a.frame.arbitration ≤ n) →
      (n + 1 < a.frame.levels.length → exec (.attemptFault levels) s = .next
        { s with line := { s.line with
            tx := .idle, rx := some (read ++ levels), faulted := some { attempt := a, bit := n + 1 } } }) ∧
      (n + 1 = a.frame.levels.length → exec (.attemptFault levels) s = .next
        { s with line := { s.line with
            tx := .idle, rx := none, awaiting := .ownRemains, slot := [false]
            faulted := some { attempt := a, bit := n + 1 } } }))

/-- FRAME_END: the vote of R39 and R40 on a frame that is no good SNAP, by the first case that applies; a failed or
malformed frame is counted, a VETO is counted and adds to the receiver veto run, an ACCEPT clears it. What is left of an own
FAULT, with nothing dominant after the bit at which the station stopped, is neither classed nor voted on (DEDUCED,
log 17). -/
def Obligations.FrameEndCastsTheVote : Prop :=
  (∀ (s : State) (read levels : List Bool) (r : Received), s.hears read levels r →
    (∀ f, r = .good f → f.body.kind ≠ .snap) →
    ∃ t v, exec (.frameEnd levels) s = .next t ∧
      t = { s with
            line := { s.line with rx := none, awaiting := .heard r v, slot := [] }
            order := { s.order with rxRun := t.order.rxRun }
            port := { s.port with counters := t.port.counters } } ∧
      (s.order.step ≠ .inStep → v = .abstain) ∧
      (s.order.step = .inStep →
        (r = .failed ∨ r = .malformed → v = .veto) ∧
        (∀ f, r = .good f → f.body.kind = .found → v = .veto) ∧
        (∀ f, r = .good f → f.body.kind ≠ .found → 32769 ≤ (f.seq - s.order.expected).toNat → v = .veto) ∧
        (∀ f, r = .good f → f.body.kind ≠ .found → f.seq = s.order.expected → v = .accept) ∧
        (∀ f, r = .good f → f.body.kind ≠ .found → 1 ≤ (f.seq - s.order.expected).toNat →
          (f.seq - s.order.expected).toNat ≤ 32768 → v = .acceptLater)) ∧
      (v = .veto → t.order.rxRun = min (s.order.rxRun + 1) 8 ∧ t.port.counters[3] = satInc s.port.counters[3]) ∧
      (v ≠ .veto → t.port.counters[3] = s.port.counters[3]) ∧
      (v = .accept ∨ v = .acceptLater → t.order.rxRun = 0) ∧ (v = .abstain → t.order.rxRun = s.order.rxRun) ∧
      (r = .failed ∨ r = .malformed → t.port.counters[4] = satInc s.port.counters[4]) ∧
      (∀ f, r = .good f → t.port.counters[4] = s.port.counters[4]) ∧
      ∀ k : Fin 28, k ≠ 3 → k ≠ 4 → t.port.counters[k] = s.port.counters[k]) ∧
  ∀ (s : State) (read levels : List Bool) (fa : Faulted), s.receives read → endsAtRunOf true (read ++ levels) = true →
    s.line.faulted = some fa → false ∉ (read ++ levels).drop fa.bit →
    exec (.frameEnd levels) s = .next { s with line := { s.line with rx := none, awaiting := .ownRemains, slot := [] } }

/-- FRAME_OUTCOME, a peer's CLAIM, RELEASE, WITHDRAW or BEAT accepted and taken: the table applies it, the expected number
moves past it, the sender's last-taken is recorded, its absence timer restarts, and the line is QUIET again. A BEAT whose
fingerprint differs is reported, and sends the station BEHIND when it comes from the reference station. A peer's SYNCREQ
names the lowest member but its sender as server: there it restarts the sender's own serve, is kept once in the serve list
of four or dropped and counted, and a serve begins when none is in progress; every other station does nothing with it. -/
def Obligations.PeerFrameTakenIsApplied : Prop :=
  (∀ (s : State) (f : Frame) (others : List Bool), s.readsSlot (.good f) .accept others true true →
    s.line.faulted = none → s.order.step = .inStep → s.mem.number ≠ some f.sender →
    s.roster.isMember f.sender = true →
    f.body.kind = .claim ∨ f.body.kind = .release ∨ f.body.kind = .withdraw ∨ f.body.kind = .beat →
    ∃ t, exec (.frameOutcome others) s = .next t ∧
      t.order.expected = f.seq + 1 ∧ t.order.lastHeard = some f.seq ∧
      t.table = (s.table.apply s.cfg s.roster.isMember f).1 ∧
      (∀ n : StationNo, t.roster.members[n] = if n = f.sender then
        (s.roster.members[n]).map fun m => { m with lastTaken := f.seq } else s.roster.members[n]) ∧
      t.roster.digest = s.roster.digest ∧
      (s.pres.absence[f.sender] ≠ .stopped →
        t.pres.absence[f.sender] = .running (s.cfg.absenceLimit * s.cfg.beatInterval)) ∧
      t.line = s.line.afterOutcome ∧
      t.port.counters[(⟨12 + f.sender.val, by omega⟩ : Fin 28)] =
        satInc s.port.counters[(⟨12 + f.sender.val, by omega⟩ : Fin 28)] ∧
      t.mem = s.mem ∧ t.cfg = s.cfg ∧ t.zl = s.zl ∧ t.power = s.power ∧ t.port.request = s.port.request ∧
      t.port.response = s.port.response ∧
      (f.body.kind ≠ .beat ∨ f.body = .beat s.fingerprint →
        t.cu = s.cu ∧ t.order.step = .inStep ∧ t.pres.beat = s.pres.beat ∧ t.pres.beatPending = s.pres.beatPending ∧
        (∀ n : StationNo, n ≠ f.sender → t.pres.absence[n] = s.pres.absence[n]) ∧
        t.port.counters[5] = s.port.counters[5]) ∧
      (∀ fp, f.body = .beat fp → fp ≠ s.fingerprint →
        t.port.counters[5] = satInc s.port.counters[5] ∧ t.slots = s.slots ∧
        t.port.events = (s.port.append s.cfg.idleTimeout
          { kind := .mismatch, station := some f.sender, seq := some f.seq }).events ∧
        (t.order.step = .behind ↔ s.roster.reference = some f.sender))) ∧
  ∀ (s : State) (f : Frame) (others : List Bool) (me : StationNo), s.readsSlot (.good f) .accept others true true →
    s.line.faulted = none → s.order.step = .inStep → s.mem.number = some me → f.sender ≠ me → f.body = .syncreq →
    (∃ n, s.roster.isMember n = true ∧ n ≠ f.sender) →
    let r := f.sender
    let recorded (n : StationNo) : Option Member :=
      if n = r then (s.roster.members[n]).map fun m => { m with lastTaken := f.seq } else s.roster.members[n]
    let named : Prop := s.roster.isMember me = true ∧ ∀ n, s.roster.isMember n = true → n ≠ r → me ≤ n
    let serveFor (x : StationNo) : Serve :=
      { requester := x, base := f.seq, count := s.table.records.length + 1, index := 0 }
    let captured : Capture :=
      { digest := s.roster.digest, members := s.roster.word, inUse := s.table.inUse, fingerprint := s.fingerprint
        lastTaken := (List.finRange 16).filterMap fun n => (recorded n).map Member.lastTaken
        records := s.table.records }
    let list := s.cu.serveList
    let isFull : Prop := r ∉ list ∧ 4 ≤ list.length
    ∃ t, exec (.frameOutcome others) s = .next t ∧
      t.order = { s.order with expected := f.seq + 1, lastHeard := some f.seq } ∧ t.table = s.table ∧
      (∀ n : StationNo, t.roster.members[n] = recorded n) ∧ t.roster.digest = s.roster.digest ∧ t.mem = s.mem ∧
      t.slots = s.slots ∧ t.cfg = s.cfg ∧ t.zl = s.zl ∧ t.line = s.line.afterOutcome ∧ t.pres.beat = s.pres.beat ∧
      t.pres.beatPending = s.pres.beatPending ∧ t.port.events = s.port.events ∧
      t.port.counters[(⟨12 + r.val, by omega⟩ : Fin 28)] = satInc s.port.counters[(⟨12 + r.val, by omega⟩ : Fin 28)] ∧
      (¬ named → t.cu = s.cu ∧ t.port.counters[10] = s.port.counters[10]) ∧
      (named → ∀ v, s.cu.serve = some v → v.requester = r →
        t.cu = { s.cu with serve := some (serveFor r), buffer := some captured } ∧
        t.port.counters[10] = s.port.counters[10]) ∧
      (named → (∀ v, s.cu.serve = some v → v.requester ≠ r) →
        (isFull → t.port.counters[10] = satInc s.port.counters[10]) ∧
        (¬ isFull → t.port.counters[10] = s.port.counters[10]) ∧
        let list' := if r ∈ list ∨ 4 ≤ list.length then list else list ++ [r]
        (s.cu.serve ≠ none → t.cu = { s.cu with serveList := list' }) ∧
        (s.cu.serve = none → ∀ x rest, list' = x :: rest →
          t.cu = { s.cu with serve := some (serveFor x), buffer := some captured, serveList := rest }))

/-- FRAME_OUTCOME VETOED, the slot dominant at bit time 8 or 9: no frame is applied. A case 5 ACCEPT, or a veto that
brought the receiver veto run to 8, sends an IN_STEP station BEHIND with nothing held back; any other vote leaves the
order tracker as it was. A good frame restarts a running listen timer and its sender's absence timer all the same. The slot is
read bit by bit, and a station that vetoes drives its two bits dominant itself. -/
def Obligations.VetoedFrameIsNotApplied : Prop :=
  (∀ (l : LineIf) (r : Received) (v : Vote) (o7 o8 o9 : Bool), l.awaiting = .heard r v → l.slot = [] →
    (v = .veto → l.slotAfter [o7, o8, o9] = [o7, false, false]) ∧
    (v ≠ .veto → l.slotAfter [o7, o8, o9] = [o7, o8, o9])) ∧
  (∀ (l : LineIf) (r : Received) (v : Vote), l.awaiting = .heard r v → l.tx = .idle →
    (l.drive = false ↔ v = .veto ∧ (l.slot.length = 1 ∨ l.slot.length = 2))) ∧
  ∀ (s : State) (r : Received) (v : Vote) (others : List Bool) (b8 b9 : Bool), s.readsSlot r v others b8 b9 →
    b8 = false ∨ b9 = false → s.line.faulted = none →
    let absence := s.cfg.absenceLimit * s.cfg.beatInterval
    let isGood : Prop := ∃ f, r = .good f
    let heard (n : StationNo) : Prop := (∃ f, r = .good f ∧ f.sender = n) ∧ s.roster.isMember n = true ∧
      s.mem.number ≠ some n ∧ s.pres.absence[n] ≠ .stopped
    let leaves : Prop := s.order.step = .inStep ∧ (v = .acceptLater ∧ isGood ∨ v = .veto ∧ 8 ≤ s.order.rxRun)
    let stays : Prop := s.order.step ≠ .inStep ∨ v = .accept ∨ v = .abstain ∨ v = .veto ∧ s.order.rxRun < 8
    ∃ t, exec (.frameOutcome others) s = .next t ∧ t.table = s.table ∧ t.roster = s.roster ∧
      t.order.expected = s.order.expected ∧ t.order.lastHeard = s.order.lastHeard ∧ t.slots = s.slots ∧
      t.port = s.port ∧ t.cfg = s.cfg ∧ t.zl = s.zl ∧ t.line = s.line.afterOutcome ∧
      (isGood → s.mem.listen ≠ .stopped → t.mem = { s.mem with listen := .running absence }) ∧
      (¬ isGood ∨ s.mem.listen = .stopped → t.mem = s.mem) ∧
      (∀ n : StationNo, heard n → t.pres.absence[n] = .running absence) ∧
      (∀ n : StationNo, ¬ heard n →
        (leaves → s.pres.absence[n] = .expired → t.pres.absence[n] = .running absence) ∧
        (stays ∨ leaves ∧ s.pres.absence[n] ≠ .expired → t.pres.absence[n] = s.pres.absence[n])) ∧
      (stays → t.pres.beat = s.pres.beat ∧ t.pres.beatPending = s.pres.beatPending ∧ t.cu = s.cu) ∧
      (leaves →
        t.order.step = .behind ∧ t.order.rxRun = 0 ∧ t.order.ownRun = 0 ∧ t.cu.phase = .requesting ∧
        t.cu.syncreqPending = true ∧ t.cu.holdBack = [] ∧ t.cu.attempts = 0 ∧ t.cu.serve = none ∧
        t.pres.beat = .stopped ∧ t.pres.beatPending = false ∧ ∀ n : StationNo, t.pres.evictFlag n = false) ∧
      (stays → t.order = s.order)

/-- A taken JOIN, LEAVE or EVICT applied in step. From a peer: a JOIN with the group's digest adds or renews its sender, one
with another digest is refused and removes it; a LEAVE or an EVICT removes its member; an EVICT of no other member is
stale. Each event follows where the frame settles no slot of this station. An EVICT of this MEMBER sends it JOINING, in step,
with a JOIN pending and every slot FREE; of this LEAVING station, DETACHED; a JOINING station stays JOINING. A frame that
leaves no member, or a SYNCREQ that no member can serve, dissolves the group at this station. A frame that bears this
station's number and that it did not send is reported as DUPLICATE after its effects: a JOIN isolates the station, and one
that removes its number costs it its membership. The own LEAVE ends in DETACHED; the own JOIN in MEMBER or REFUSED. That
a LEAVE bearing the own number and not sent here appends no PEER_OUT is the model's choice (log 28). -/
def Obligations.MembershipFramesMoveTheRoster : Prop :=
  (∀ (s : State) (f : Frame) (others : List Bool), s.readsSlot (.good f) .accept others true true →
    s.line.faulted = none → s.order.step = .inStep →
    let member := s.roster.isMember f.sender
    let report := (s.table.apply s.cfg s.roster.isMember f).2
    let ownGrants : Prop := ∃ g ∈ report.grants, s.mem.number = some g.1
    let othersRemain : Prop := ∃ n : StationNo, s.roster.isMember n = true ∧ n ≠ f.sender
    let recorded (n : StationNo) : Option Member := if n = f.sender then
      (s.roster.members[n]).map fun m => { m with lastTaken := f.seq } else s.roster.members[n]
    (∀ d, f.body = .join d → s.mem.number ≠ some f.sender → s.roster.digest = some d →
      ∃ t, exec (.frameOutcome others) s = .next t ∧ t.order.expected = f.seq + 1 ∧
        (∀ n : StationNo, t.roster.members[n] = if n = f.sender then
          some { joinedAt := f.seq, lastTaken := f.seq } else s.roster.members[n]) ∧
        t.roster.digest = s.roster.digest ∧ t.mem = s.mem ∧
        (member = false → t.table = s.table) ∧ (member = true → ∀ rec ∈ t.table.records, rec.owner ≠ f.sender) ∧
        t.pres.absence[f.sender] = .running (s.cfg.absenceLimit * s.cfg.beatInterval) ∧
        (¬ ownGrants → t.slots = s.slots ∧ t.port.events = (s.port.append s.cfg.idleTimeout
          { kind := .peerIn, station := some f.sender, cause := some (.cause (if member then .renewed else .new))
            seq := some f.seq }).events)) ∧
    (∀ d, f.body = .join d → s.mem.number ≠ some f.sender → s.roster.digest ≠ some d → othersRemain →
      ∃ t, exec (.frameOutcome others) s = .next t ∧ t.order.expected = f.seq + 1 ∧
        (∀ n : StationNo, t.roster.members[n] = if n = f.sender then none else s.roster.members[n]) ∧
        t.roster.digest = s.roster.digest ∧ t.mem = s.mem ∧
        (member = false → t.table = s.table) ∧
        (member = true → (∀ rec ∈ t.table.records, rec.owner ≠ f.sender) ∧ t.pres.absence[f.sender] = .stopped) ∧
        (¬ ownGrants → t.slots = s.slots ∧ t.port.events = (s.port.append s.cfg.idleTimeout
          { kind := .peerRefused, station := some f.sender, seq := some f.seq }).events)) ∧
    (f.body = .leave → s.mem.number ≠ some f.sender → othersRemain →
      ∃ t, exec (.frameOutcome others) s = .next t ∧ t.order.expected = f.seq + 1 ∧
        (∀ n : StationNo, t.roster.members[n] = if n = f.sender then none else s.roster.members[n]) ∧
        t.roster.digest = s.roster.digest ∧ t.mem = s.mem ∧
        (member = false → t.table = s.table ∧ t.slots = s.slots ∧ t.port.events = s.port.events) ∧
        (member = true → (∀ rec ∈ t.table.records, rec.owner ≠ f.sender) ∧ t.pres.absence[f.sender] = .stopped ∧
          (¬ ownGrants → t.slots = s.slots ∧ t.port.events = (s.port.append s.cfg.idleTimeout
            { kind := .peerOut, station := some f.sender, cause := some (.cause .left), seq := some f.seq }).events))) ∧
    (∀ target, f.body = .evict target → s.mem.number ≠ some f.sender →
      (∀ x : StationNo, x.val = target.toNat → s.roster.isMember x = false ∨ x = f.sender) →
      (∃ n, s.roster.isMember n = true) →
      ∃ t, exec (.frameOutcome others) s = .next t ∧ t.order.expected = f.seq + 1 ∧ t.table = s.table ∧
        (∀ n : StationNo, t.roster.members[n] = recorded n) ∧ t.roster.digest = s.roster.digest ∧
        t.port.counters[6] = satInc s.port.counters[6] ∧ t.port.events = s.port.events ∧ t.slots = s.slots ∧
        t.mem = s.mem ∧ ∀ n : StationNo, n ≠ f.sender → t.pres.absence[n] = s.pres.absence[n]) ∧
    (∀ x other : StationNo, f.body = .evict (byteOf x.val) → s.roster.isMember x = true → x ≠ f.sender →
      s.roster.isMember other = true → other ≠ x →
      (s.mem.number ≠ some x →
        ∃ t, exec (.frameOutcome others) s = .next t ∧ t.order.expected = f.seq + 1 ∧
          t.roster.isMember x = false ∧
          (∀ n : StationNo, n ≠ x → t.roster.isMember n = s.roster.isMember n) ∧
          (∀ rec ∈ t.table.records, rec.owner ≠ x) ∧ t.pres.absence[x] = .stopped ∧ t.mem = s.mem ∧
          (s.mem.number ≠ some f.sender → ¬ ownGrants → t.slots = s.slots ∧
            t.port.events = (s.port.append s.cfg.idleTimeout
              { kind := .peerOut, station := some x, cause := some (.cause .evicted), seq := some f.seq }).events)) ∧
      (s.mem.number = some x → s.mem.state = .member →
        ∃ t, exec (.frameOutcome others) s = .next t ∧ t.order.expected = f.seq + 1 ∧ t.order.step = .inStep ∧
          t.mem.state = .joining ∧ t.mem.pendingJoin = true ∧ t.roster.isMember x = false ∧
          (∀ rec ∈ t.table.records, rec.owner ≠ x) ∧ t.pres.beat = .stopped ∧ t.pres.beatPending = false ∧
          t.cu.serve = none ∧ t.cu.serveList = [] ∧
          (∀ k : Tag, t.slots.slots[k] = Slot.empty) ∧ (∀ l : LineNo, t.lineAsserted l ≠ some true) ∧
          t.port.events = s.eventsWith
            ({ kind := .stationState, state := some .joining, cause := some (.cause .evicted), seq := some f.seq } ::
              s.slotEnds .lost .evicted f.seq)) ∧
      (s.mem.number = some x → s.mem.state = .leaving →
        ∃ t, exec (.frameOutcome others) s = .next t ∧ t.mem.state = .detached ∧ t.outOfGroup ∧
          t.port.events = s.eventsWith
            ({ kind := .stationState, state := some .detached, cause := some (.cause .evicted), seq := some f.seq } ::
              s.slotEnds .lost .evicted f.seq)) ∧
      (s.mem.number = some x → s.mem.state = .joining → (∀ k : Tag, (s.slots.slots[k]).state = .free) →
        ∃ t, exec (.frameOutcome others) s = .next t ∧ t.order.expected = f.seq + 1 ∧ t.order.step = .inStep ∧
          t.mem = s.mem ∧ t.roster.isMember x = false ∧ (∀ rec ∈ t.table.records, rec.owner ≠ x) ∧ t.slots = s.slots ∧
          t.port.events = s.eventsWith
            [{ kind := .peerOut, station := some x, cause := some (.cause .evicted), seq := some f.seq }]))) ∧
  (∀ (s : State) (f : Frame) (others : List Bool), s.readsSlot (.good f) .accept others true true →
    s.line.faulted = none → s.order.step = .inStep → s.mem.number ≠ some f.sender →
    let only (x : StationNo) : Prop := ∀ n : StationNo, s.roster.isMember n = true ↔ n = x
    let peer (k : EventKind) (x : StationNo) (c : Option Cause) : Event :=
      { kind := k, station := some x, cause := c.map .cause, seq := some f.seq }
    let ends (st : StationState) (c : Cause) (first : List Event) : Prop :=
      ∃ t, exec (.frameOutcome others) s = .next t ∧ t.mem.state = st ∧ t.outOfGroup ∧
        t.mem.listen = (if st = .listening then .running (s.cfg.absenceLimit * s.cfg.beatInterval) else .stopped) ∧
        (st = .listening → t.order.lastHeard = none) ∧
        t.port.events = s.eventsWith (first ++ { kind := .stationState, state := some st, cause := some (.cause c)
                                                 seq := some f.seq } :: s.slotEnds .lost c f.seq)
    (f.body = .leave → only f.sender → ends .listening .dissolved [peer .peerOut f.sender (some .left)]) ∧
    (∀ d, f.body = .join d → s.roster.digest ≠ some d → only f.sender →
      ends .listening .dissolved [peer .peerRefused f.sender none]) ∧
    (∀ x : StationNo, f.body = .evict (byteOf x.val) → x ≠ f.sender → only x →
      (s.mem.number ≠ some x ∨ s.mem.state = .joining →
        ends .listening .dissolved [peer .peerOut x (some .evicted)]) ∧
      (s.mem.number = some x → s.mem.state = .member → ends .listening .dissolved []) ∧
      (s.mem.number = some x → s.mem.state = .leaving → ends .detached .evicted [])) ∧
    (f.body = .syncreq → (∀ n : StationNo, s.roster.isMember n = true → n = f.sender) →
      ends .listening .dissolved [])) ∧
  (∀ (s : State) (f : Frame) (others : List Bool) (other : StationNo), s.readsSlot (.good f) .accept others true true →
    s.line.faulted = none → s.order.step = .inStep → s.mem.number = some f.sender →
    s.roster.isMember other = true → other ≠ f.sender →
    let me := f.sender
    let report := (s.table.apply s.cfg s.roster.isMember f).2
    let elsewhere : Prop := (∀ g ∈ report.grants, g.1 ≠ me) ∧ ∀ r ∈ report.removed, r.owner ≠ me
    let twin : Event := { kind := .duplicate, seq := some f.seq, cause := some (.kind f.body.kind) }
    let told (st : StationState) (c : Cause) : List Event := s.eventsWith
      (twin :: { kind := .stationState, state := some st, cause := some (.cause c), seq := some f.seq } ::
        s.slotEnds .lost c f.seq)
    let followed (t : State) : Prop := t.order.expected = f.seq + 1 ∧ t.order.step = .inStep ∧
      t.table = (s.table.apply s.cfg s.roster.isMember f).1 ∧
      t.port.counters[(⟨12 + me.val, by omega⟩ : Fin 28)] = satInc s.port.counters[(⟨12 + me.val, by omega⟩ : Fin 28)]
    (∀ d, f.body = .join d → ∃ t, exec (.frameOutcome others) s = .next t ∧ t.mem.state = .isolated ∧ t.outOfGroup ∧
      t.mem.listen = .stopped ∧ t.port.events = told .isolated .duplicate) ∧
    (f.body.kind = .claim ∨ f.body.kind = .release ∨ f.body.kind = .withdraw ∨ f.body.kind = .syncreq ∨
        f.body.kind = .beat →
      ∃ t, exec (.frameOutcome others) s = .next t ∧ followed t ∧ t.mem = s.mem ∧ t.cu = s.cu ∧
        (elsewhere → t.slots = s.slots ∧
          (f.body.kind ≠ .beat ∨ f.body = .beat s.fingerprint → t.port.events = s.eventsWith [twin]) ∧
          (∀ fp, f.body = .beat fp → fp ≠ s.fingerprint → t.port.events = s.eventsWith
            [twin, { kind := .mismatch, station := some me, seq := some f.seq }]))) ∧
    (∀ target, f.body = .evict target →
      (∀ x : StationNo, x.val = target.toNat → s.roster.isMember x = false ∨ x = me) →
      ∃ t, exec (.frameOutcome others) s = .next t ∧ followed t ∧ t.mem = s.mem ∧ t.slots = s.slots ∧
        t.port.counters[6] = satInc s.port.counters[6] ∧ t.port.events = s.eventsWith [twin]) ∧
    (∀ x : StationNo, f.body = .evict (byteOf x.val) → s.roster.isMember x = true → x ≠ me →
      (∃ n, s.roster.isMember n = true ∧ n ≠ x) →
      ∃ t, exec (.frameOutcome others) s = .next t ∧ followed t ∧ t.mem = s.mem ∧ t.roster.isMember x = false ∧
        (elsewhere → t.slots = s.slots ∧ t.port.events = s.eventsWith
          [{ kind := .peerOut, station := some x, cause := some (.cause .evicted), seq := some f.seq }, twin])) ∧
    (f.body = .leave →
      (s.roster.isMember me = false → ∃ t, exec (.frameOutcome others) s = .next t ∧ followed t ∧ t.mem = s.mem ∧
        t.roster = s.roster ∧ t.slots = s.slots ∧ t.port.events = s.eventsWith [twin]) ∧
      (s.roster.isMember me = true → s.mem.state = .member → ∃ t, exec (.frameOutcome others) s = .next t ∧
        followed t ∧ t.mem.state = .joining ∧ t.mem.pendingJoin = true ∧ t.roster.isMember me = false ∧
        t.cu.serve = none ∧ t.cu.serveList = [] ∧ (∀ k : Tag, t.slots.slots[k] = Slot.empty) ∧
        t.port.events = told .joining .removed) ∧
      (s.roster.isMember me = true → s.mem.state = .leaving → ∃ t, exec (.frameOutcome others) s = .next t ∧
        t.mem.state = .detached ∧ t.outOfGroup ∧ t.port.events = told .detached .removed) ∧
      (s.roster.isMember me = true → s.mem.state = .joining → (∀ k : Tag, (s.slots.slots[k]).state = .free) →
        ∃ t, exec (.frameOutcome others) s = .next t ∧ followed t ∧ t.mem = s.mem ∧ t.roster.isMember me = false ∧
          t.slots = s.slots ∧ t.port.events = s.eventsWith [twin]))) ∧
  ∀ (s : State) (a : Attempt) (levels : List Bool) (me : StationNo), s.completes a levels true true →
    s.order.step = .inStep → s.mem.number = some me → a.frame.sender = me →
    let told (st : StationState) (c : Cause) (es : List Event) : List Event := s.eventsWith
      ({ kind := .stationState, state := some st, cause := some (.cause c), seq := some a.frame.seq } :: es)
    (a.source = .leave → a.frame.body = .leave → s.mem.state = .leaving →
      ∃ t, exec (.ownFrameOutcome levels) s = .next t ∧ t.mem.state = .detached ∧ t.outOfGroup ∧
        t.port.counters[0] = satInc s.port.counters[0] ∧
        t.port.events = told .detached .left (s.slotEnds .freed .left a.frame.seq)) ∧
    (∀ d, a.source = .join → a.frame.body = .join d → s.mem.state = .joining →
      (s.roster.digest = some d → (∀ k : Tag, (s.slots.slots[k]).state = .free) →
        ∃ t, exec (.ownFrameOutcome levels) s = .next t ∧ t.mem.state = .member ∧ t.mem.pendingJoin = false ∧
          t.order.step = .inStep ∧ t.order.expected = a.frame.seq + 1 ∧
          (∀ n : StationNo, t.roster.members[n] = if n = me then
            some { joinedAt := a.frame.seq, lastTaken := a.frame.seq } else s.roster.members[n]) ∧
          (∀ rec ∈ t.table.records, rec.owner = me → s.roster.isMember me = false) ∧
          t.pres.beat = .running s.cfg.beatInterval ∧
          (∀ n : StationNo, t.pres.absence[n] = if s.roster.isMember n = true ∧ n ≠ me then
            .running (s.cfg.absenceLimit * s.cfg.beatInterval) else .stopped) ∧
          t.port.counters[0] = satInc s.port.counters[0] ∧ t.port.events = told .member .joined []) ∧
      (s.roster.digest ≠ some d →
        ∃ t, exec (.ownFrameOutcome levels) s = .next t ∧ t.mem.state = .refused ∧ t.outOfGroup ∧
          t.port.counters[0] = satInc s.port.counters[0] ∧
          t.port.events = told .refused .config (s.slotEnds .lost .config a.frame.seq)))

/-- FRAME_OUTCOME, a frame of another station taken at a station that is not in step with it. LISTENING or FOUNDING: a
FOUND is adopted (JOINING, in step, the founder alone in the roster, a JOIN pending); any other frame makes it JOINING
and BEHIND with that frame held back first. BEHIND: a FOUND is adopted, and ends a departure; any other frame joins the
hold-back queue. IN_STEP, with an ACCEPT by case 5: the station enters BEHIND with that frame held back. A FOUND that
bears this station's own number isolates the station that adopts it, and any other such frame is held back as another's is. In
IDLE, DETACHED, REFUSED and ISOLATED a taken frame is counted and nothing else; a failed or malformed one that a station which
gave no vote finds TAKEN is dropped. -/
def Obligations.ListeningStationFollowsATakenFrame : Prop :=
  (∀ (s : State) (r : Received) (v : Vote) (others : List Bool), s.readsSlot r v others true true →
    s.line.faulted = none → r = .failed ∨ r = .malformed → s.order.step ≠ .inStep →
    exec (.frameOutcome others) s = .next { s with line := s.line.afterOutcome }) ∧
  ∀ (s : State) (f : Frame) (v : Vote) (others : List Bool), s.readsSlot (.good f) v others true true →
    s.line.faulted = none →
    let foreign : Prop := s.mem.number = some f.sender
    let count : Fin 28 := ⟨12 + f.sender.val, by omega⟩
    (s.order.step = .off →
      s.mem.state = .idle ∨ s.mem.state = .detached ∨ s.mem.state = .refused ∨ s.mem.state = .isolated →
      s.roster.isMember f.sender = false → exec (.frameOutcome others) s = .next
        { s with
          line := s.line.afterOutcome
          port := { s.port with counters := s.port.counters.set count (satInc s.port.counters[count]) } }) ∧
    (foreign → ∀ d, f.body = .found d →
      s.order.step = .off ∧ (s.mem.state = .listening ∨ s.mem.state = .founding) ∨
        s.order.step = .behind ∧ (s.mem.state = .joining ∨ s.mem.state = .member ∨ s.mem.state = .leaving) →
      ∃ t, exec (.frameOutcome others) s = .next t ∧ t.mem.state = .isolated ∧ t.mem.listen = .stopped ∧ t.outOfGroup ∧
        t.order.lastHeard = some f.seq ∧ t.port.counters[count] = satInc s.port.counters[count] ∧
        t.port.events = s.eventsWith ({ kind := .duplicate, seq := some f.seq, cause := some (.kind .found) } ::
          { kind := .stationState, state := some .isolated, cause := some (.cause .duplicate), seq := some f.seq } ::
            s.slotEnds .lost .duplicate f.seq)) ∧
    let adopted (d : Half) (t : State) : Prop :=
      t.mem.state = .joining ∧ t.mem.pendingJoin = true ∧ t.mem.pendingFound = false ∧ t.mem.listen = .stopped ∧
      t.order.step = .inStep ∧ t.order.expected = f.seq + 1 ∧ t.order.rxRun = 0 ∧ t.order.ownRun = 0 ∧
      t.table = Table.empty ∧ t.roster.digest = some d ∧
      (∀ n : StationNo, t.roster.members[n] = if n = f.sender then
        some { joinedAt := f.seq, lastTaken := f.seq } else none) ∧
      t.pres.absence[f.sender] = .running (s.cfg.absenceLimit * s.cfg.beatInterval) ∧ t.cu = CatchUp.idle ∧
      t.cfg = s.cfg ∧ t.mem.ownDigest = s.mem.ownDigest
    let told (st : StationState) (c : Cause) := (s.port.append s.cfg.idleTimeout
      { kind := .stationState, state := some st, cause := some (.cause c), seq := some f.seq }).events
    let behindWith (t : State) : Prop :=
      t.order.step = .behind ∧ t.order.lastHeard = some f.seq ∧ t.order.expected = s.order.expected ∧
      t.cu = { CatchUp.idle with
        phase := .requesting, syncreqPending := true, holdBack := [{ frame := f, own := false }] } ∧
      t.table = s.table ∧ t.roster = s.roster ∧ t.slots = s.slots ∧ t.cfg = s.cfg
    let following : Prop := s.mem.state = .joining ∨ s.mem.state = .member ∨ s.mem.state = .leaving
    (s.order.step = .off → s.mem.state = .listening ∨ s.mem.state = .founding →
      (¬ foreign → ∀ d, f.body = .found d → ∃ t, exec (.frameOutcome others) s = .next t ∧ adopted d t ∧
        t.slots = s.slots ∧ t.port.events = told .joining .adopted) ∧
      (f.body.kind ≠ .found → ∃ t, exec (.frameOutcome others) s = .next t ∧ behindWith t ∧ t.mem.state = .joining ∧
        t.mem.pendingJoin = false ∧ t.mem.pendingFound = false ∧ t.mem.listen = .stopped ∧
        t.port.events = told .joining .heard)) ∧
    (s.order.step = .behind → ¬ foreign → ∀ d, f.body = .found d →
      (s.mem.state = .joining → ∃ t, exec (.frameOutcome others) s = .next t ∧ adopted d t ∧ t.slots = s.slots ∧
        t.port.events = s.port.events) ∧
      (s.mem.state = .member → ∃ t, exec (.frameOutcome others) s = .next t ∧ adopted d t ∧
        (∀ k : Tag, t.slots.slots[k] = Slot.empty) ∧
        ((∀ k : Tag, (s.slots.slots[k]).state = .free) → t.port.events = told .joining .adopted)) ∧
      (s.mem.state = .leaving → ∃ t, exec (.frameOutcome others) s = .next t ∧ t.mem.state = .detached ∧
        t.mem.pendingLeave = false ∧ t.mem.pendingJoin = false ∧ t.order.step = .off ∧ t.table = Table.empty ∧
        t.roster = Roster.empty ∧ t.pres = Presence.stopped ∧ t.cu = CatchUp.idle ∧
        (∀ k : Tag, t.slots.slots[k] = Slot.empty) ∧
        ((∀ k : Tag, (s.slots.slots[k]).state = .free) → t.port.events = told .detached .dissolved))) ∧
    (s.order.step = .behind → f.body.kind ≠ .found → following →
      ∃ t, exec (.frameOutcome others) s = .next t ∧ t.order = { s.order with lastHeard := some f.seq } ∧
        t.table = s.table ∧ t.roster = s.roster ∧ t.slots = s.slots ∧ t.mem = s.mem ∧ t.port.events = s.port.events ∧
        t.cu = { s.cu with holdBack := t.cu.holdBack, wait := t.cu.wait } ∧
        (s.order.lastHeard = none → s.cu.phase = .requesting → t.cu.wait = .stopped) ∧
        (s.order.lastHeard ≠ none ∨ s.cu.phase ≠ .requesting → t.cu.wait = s.cu.wait) ∧
        (s.cu.holdBack = [] → t.cu.holdBack = [{ frame := f, own := false }]) ∧
        (∀ newest, s.cu.holdBack.getLast? = some newest →
          let ahead := (f.seq - newest.frame.seq).toNat
          (1 ≤ ahead → ahead ≤ 32767 → s.cu.holdBack.length < 16 →
            t.cu.holdBack = s.cu.holdBack ++ [{ frame := f, own := false }]) ∧
          (1 ≤ ahead → ahead ≤ 32767 → 16 ≤ s.cu.holdBack.length →
            t.cu.holdBack = s.cu.holdBack.drop 1 ++ [{ frame := f, own := false }]) ∧
          (ahead = 0 ∨ 32768 ≤ ahead → t.cu.holdBack = [{ frame := f, own := false }]))) ∧
    (s.order.step = .inStep → v = .acceptLater → following →
      ∃ t, exec (.frameOutcome others) s = .next t ∧ behindWith t ∧ t.order.rxRun = 0 ∧ t.order.ownRun = 0 ∧
        t.mem = s.mem ∧ t.port.events = s.port.events ∧ t.pres.beat = .stopped ∧ t.pres.beatPending = false ∧
        ∀ n : StationNo, t.pres.evictFlag n = false)

/-- OWN_FRAME_OUTCOME, slot dominant. Of an own frame in step: nothing is applied, the veto is counted, and the third veto
of one frame sends the station BEHIND; the slot unit keeps a RELEASE and a CLAIM without a mark, ends a marked CLAIM,
turns a marked WITHDRAW into a RELEASE, and ends an overtaken WITHDRAW as too late. Of the own FOUND: the station goes
JOINING and BEHIND. Of the own SYNCREQ: it stays pending, and its third veto is a failed attempt. -/
def Obligations.OwnVetoCountsTowardsBehind : Prop :=
  ∀ (s : State) (a : Attempt) (levels : List Bool) (b8 b9 : Bool), s.completes a levels b8 b9 →
    b8 = false ∨ b9 = false → a.frame.body.kind ≠ .snap →
    (s.order.step = .inStep →
      a.source = .leave ∨ a.source = .join ∨ a.source = .beat ∨ (∃ x, a.source = .evict x) →
      ∃ t, exec (.ownFrameOutcome levels) s = .next t ∧
        t = { s with line := s.line.afterOutcome, order := t.order, pres := t.pres, cu := t.cu
                     port := { s.port with counters := t.port.counters } } ∧
        t.port.counters[1] = satInc s.port.counters[1] ∧
        (∀ k : Fin 28, k ≠ 1 → t.port.counters[k] = s.port.counters[k]) ∧ s.countsUnsent t) ∧
    (s.order.step = .inStep → ∀ id k e, a.source = .queue id k →
      s.slots.queue.find? (fun q => q.id = id) = some e → e.purged = false →
      let x := s.slots.slots[e.tag]
      let without := s.slots.queue.filter fun q => decide (q.tag ≠ e.tag) || q.purged
      let ends (y : Slot) : SlotUnit := { s.slots with slots := s.slots.slots.set e.tag y, queue := without }
      let tells (k : EventKind) (c : Option Cause) := (s.port.append s.cfg.idleTimeout
        { kind := k, tag := some e.tag, cause := c.map .cause }).events
      ∃ t, exec (.ownFrameOutcome levels) s = .next t ∧ s.countsUnsent t ∧
        t.port.counters[1] = satInc s.port.counters[1] ∧ t.line = s.line.afterOutcome ∧ t.table = s.table ∧
        t.roster = s.roster ∧ t.mem = s.mem ∧ t.cfg = s.cfg ∧ t.zl = s.zl ∧
        (e.kind = .release ∨ e.kind = .claim ∧ x.mark = .none ∨
            e.kind = .withdraw ∧ x.state = .cancelling ∧ x.mark ≠ .releaseAfter →
          t.slots = s.slots ∧ t.port.events = s.port.events) ∧
        (e.kind = .claim → x.mark = .releaseAfter →
          t.slots = ends Slot.empty ∧ t.port.events = tells .freed (some .notSent)) ∧
        (e.kind = .claim → x.mark = .cancelAfter →
          t.slots = ends Slot.empty ∧ t.port.events = tells .withdrawn (some .notSent)) ∧
        (e.kind = .withdraw → x.state = .cancelling ∨ x.state = .releasing → x.mark = .releaseAfter →
          t.slots = { s.slots with
            slots := s.slots.slots.set e.tag { x with state := .releasing, mark := .none, holdTimer := .stopped }
            queue := s.slots.queue.map fun q =>
              if q.tag = e.tag ∧ q.purged = false then { q with kind := .release } else q } ∧
          t.port.events = s.port.events) ∧
        (e.kind = .withdraw → x.state = .held →
          t.slots = ends { x with mark := .none } ∧ t.port.events = tells .tooLate none)) ∧
    (s.order.step = .off → s.mem.state = .founding → a.source = .found →
      ∃ t, exec (.ownFrameOutcome levels) s = .next t ∧ t.mem.state = .joining ∧ t.mem.pendingFound = false ∧
        t.mem.pendingJoin = false ∧ t.order.step = .behind ∧ t.order.lastHeard = s.order.lastHeard ∧
        t.cu.phase = .requesting ∧ t.cu.syncreqPending = true ∧ t.cu.holdBack = [] ∧
        t.port.counters[1] = satInc s.port.counters[1] ∧ t.slots = s.slots ∧ t.line = s.line.afterOutcome ∧
        t.port.events = (s.port.append s.cfg.idleTimeout
          { kind := .stationState, state := some .joining, cause := some (.cause .foundVetoed) }).events) ∧
    (s.order.step = .behind → a.source = .syncreq →
      ∃ t, exec (.ownFrameOutcome levels) s = .next t ∧ t.port.counters[1] = satInc s.port.counters[1] ∧
        (s.cu.vetoRun < 2 → t.cu = { s.cu with vetoRun := s.cu.vetoRun + 1 } ∧ t.order = s.order ∧ t.mem = s.mem ∧
          t.slots = s.slots ∧ t.port.events = s.port.events) ∧
        (2 ≤ s.cu.vetoRun → s.cu.attempts < 2 → t.order = s.order ∧ t.mem = s.mem ∧ t.slots = s.slots ∧
          t.cu.attempts = s.cu.attempts + 1 ∧ t.cu.vetoRun = 0 ∧ t.cu.phase = .requesting ∧
          t.cu.syncreqPending = true ∧ t.cu.holdBack = s.cu.holdBack ∧
          t.port.counters[8] = satInc s.port.counters[8] ∧ t.port.events = (s.port.append s.cfg.idleTimeout
            { kind := .catchupFail, count := some (s.cu.attempts + 1), cause := some (.cause .request) }).events) ∧
        (2 ≤ s.cu.vetoRun → 2 ≤ s.cu.attempts → t.mem.state = .isolated ∧ t.order.step = .off ∧
          t.cu = CatchUp.idle ∧ t.table = Table.empty))

/-- OWN_FRAME_OUTCOME, slot recessive, of the own CLAIM of a PENDING slot: the table applies it, its entry leaves the
queue, and the slot follows the claim outcome. A mark is resolved in the same happening: RELEASE-AFTER queues a RELEASE
and the slot goes RELEASING, granted or not; CANCEL-AFTER queues a WITHDRAW unless the claim was granted, and then is too
late. -/
def Obligations.OwnClaimTakenSettlesItsSlot : Prop :=
  ∀ (s : State) (a : Attempt) (levels : List Bool) (me : StationNo) (e : Entry) (zp : Bool) (lo hi : Byte) (units : Half),
    s.completes a levels true true → s.order.step = .inStep → s.mem.state = .member →
    s.mem.number = some me → s.roster.isMember me = true →
    a.source = .queue e.id .claim → s.slots.queue.find? (fun q => q.id = e.id) = some e → e.purged = false →
    a.frame.sender = me → a.frame.body = .claim (byteOf e.tag.val) zp lo hi units →
    (s.slots.slots[e.tag]).state = .pending →
    let report := (s.table.apply s.cfg s.roster.isMember a.frame).2
    let granted : Prop := (me, e.tag) ∈ report.grants
    let x := s.slots.slots[e.tag]
    let seq := a.frame.seq
    let hold : Timer := if x.holdLimit = 0 then .stopped else .running x.holdLimit
    let held : Slot :=
      { x with state := .held, admittedAt := some seq, grantedAt := some seq, mark := .none, holdTimer := hold }
    let releasing (g : Option Seq) : Slot :=
      { x with state := .releasing, admittedAt := some seq, grantedAt := g, mark := .none, holdTimer := .stopped }
    let left := s.slots.queue.filter fun q => decide (q.id ≠ e.id)
    let onlyThis : Prop := ∀ g ∈ report.grants, g.1 = me → g.2 = e.tag
    let note (k : EventKind) (c : Option Cause) : Event :=
      { kind := k, tag := some e.tag, cause := c.map .cause, seq := some seq }
    let told (es : List Event) := (es.foldl (fun p v => p.append s.cfg.idleTimeout v) s.port).events
    let ends (t : State) (y : Slot) (es : List Event) : Prop :=
      t.slots.slots[e.tag] = y ∧ (onlyThis → t.port.events = told es ∧
        t.slots = { s.slots with slots := s.slots.slots.set e.tag y, queue := left })
    let queues (t : State) (y : Slot) (k : EntryKind) (es : List Event) : Prop :=
      t.slots.slots[e.tag] = y ∧ (onlyThis → t.port.events = told es ∧
        t.slots = { s.slots with
          slots := s.slots.slots.set e.tag y
          queue := left ++ [{ id := s.slots.nextId, kind := k, tag := e.tag, purged := false }]
          nextId := s.slots.nextId + 1 })
    ∃ t, exec (.ownFrameOutcome levels) s = .next t ∧
      t.table = (s.table.apply s.cfg s.roster.isMember a.frame).1 ∧ t.order.expected = seq + 1 ∧
      t.order.lastHeard = some seq ∧ t.order.ownRun = 0 ∧ t.mem = s.mem ∧
      t.port.counters[0] = satInc s.port.counters[0] ∧
      (report.claim = some .admitted → ¬ granted →
        (x.mark = .none → ends t { x with state := .waiting, admittedAt := some seq } [note .admitted none]) ∧
        (x.mark = .releaseAfter → queues t (releasing x.grantedAt) .release [note .admitted none]) ∧
        (x.mark = .cancelAfter →
          queues t { x with state := .cancelling, admittedAt := some seq, mark := .none } .withdraw
            [note .admitted none])) ∧
      (report.claim = some .admitted → granted →
        (x.mark = .none → ends t held [note .admitted none, note .granted none]) ∧
        (x.mark = .releaseAfter →
          queues t (releasing (some seq)) .release [note .admitted none, note .granted none]) ∧
        (x.mark = .cancelAfter →
          ends t held [note .admitted none, note .granted none, note .tooLate none])) ∧
      (report.claim = some (.refused .duplicate) → ends t Slot.empty [note .refused (some .duplicate)]) ∧
      (report.claim = some (.refused .range) → ends t Slot.empty [note .refused (some .range)]) ∧
      (report.claim = some (.refused .full) → ends t Slot.empty [note .refused (some .full)])

/-- OWN_FRAME_OUTCOME, slot recessive: the own FOUND of a FOUNDING station founds the group; the own SYNCREQ of a BEHIND
station puts it in AWAITING with the wait timer running and the SYNCREQ held back. -/
def Obligations.OwnFoundAndSyncreqTaken : Prop :=
  ∀ (s : State) (a : Attempt) (levels : List Bool), s.completes a levels true true →
    (∀ (me : StationNo) (d : Half), s.order.step = .off → s.mem.state = .founding → s.mem.number = some me →
      a.source = .found → a.frame.body = .found d →
      ∃ t, exec (.ownFrameOutcome levels) s = .next t ∧ t.mem.state = .member ∧ t.mem.pendingFound = false ∧
        t.order.step = .inStep ∧ t.order.expected = a.frame.seq + 1 ∧ t.order.lastHeard = some a.frame.seq ∧
        t.table = Table.empty ∧ t.roster.digest = some s.mem.ownDigest ∧
        (∀ n : StationNo, t.roster.members[n] = if n = me then
          some { joinedAt := a.frame.seq, lastTaken := a.frame.seq } else none) ∧
        t.pres.beat = .running s.cfg.beatInterval ∧ t.pres.absence = s.pres.absence ∧ t.slots = s.slots ∧
        t.port.counters[0] = satInc s.port.counters[0] ∧
        t.port.events = (s.port.append s.cfg.idleTimeout
          { kind := .stationState, state := some .member, cause := some (.cause .founded)
            seq := some a.frame.seq }).events) ∧
    (s.order.step = .behind → a.source = .syncreq → a.frame.body = .syncreq →
      s.mem.state = .joining ∨ s.mem.state = .member ∨ s.mem.state = .leaving →
      ∃ t, exec (.ownFrameOutcome levels) s = .next t ∧ t.cu.phase = .awaiting ∧ t.cu.syncreqPending = false ∧
        t.cu.vetoRun = 0 ∧ t.cu.wait = .running (s.cfg.absenceLimit * s.cfg.beatInterval) ∧
        t.cu.attempts = s.cu.attempts ∧ t.cu.holdBack.getLast? = some { frame := a.frame, own := true } ∧
        t.order.step = .behind ∧ t.order.expected = s.order.expected ∧ t.order.lastHeard = some a.frame.seq ∧
        t.table = s.table ∧ t.roster = s.roster ∧ t.mem = s.mem ∧ t.slots = s.slots ∧
        t.port.events = s.port.events)

/-- SNAP_SENT: whatever was driven in the slot, the serve goes to its next part; after the last part it ends, is counted,
and the next request of the serve list begins. That a part done is no longer the frame of the own-frame run is DEDUCED
(log 13). -/
def Obligations.SnapSentAdvancesTheServe : Prop :=
  ∀ (s : State) (a : Attempt) (v : Serve) (levels : List Bool) (b8 b9 : Bool), s.completes a levels b8 b9 →
    a.frame.body.kind = .snap → s.cu.serve = some v →
    ∃ t, exec (.snapSent levels) s = .next t ∧
      t = { s with line := s.line.afterOutcome, order := { s.order with ownRunOf := none }, cu := t.cu
                   port := { s.port with counters := t.port.counters } } ∧
      (v.index + 1 < v.count → t.cu = { s.cu with serve := some { v with index := v.index + 1 } } ∧
        t.port.counters = s.port.counters) ∧
      (v.count ≤ v.index + 1 → t.port.counters[9] = satInc s.port.counters[9] ∧
        (s.cu.serveList = [] → t.cu = { s.cu with serve := none, buffer := none }) ∧
        (∀ x rest, s.cu.serveList = x :: rest → t.cu.serveList = rest ∧
          t.cu.serve = some { requester := x, base := s.order.expected - 1, count := s.table.records.length + 1, index := 0 } ∧
          t.cu.buffer.map Capture.records = some s.table.records))

/-- FRAME_END of a SNAP for this station while it waits for parts. A header with more parts to come is stored; so is a
record part in its turn; the wait timer restarts. A part out of turn is a failed attempt; a SNAP for another station, from
another server or while REQUESTING leaves the catch-up unit as it was. A complete snapshot is checked: another digest
refuses the station, a gap in the run or a candidate that table or roster does not accept is a failed attempt, and
otherwise it is installed: the station is back in step with the candidate, the frames held back after the base are applied
in turn for as long as it stays in step, its standing is settled against the roster they leave, and its slots are
re-validated. A held-back frame is applied as a live one is, but a BEAT is not compared and a SYNCREQ names no server.
That a record part's flags, and units with zones, are checked is DEDUCED (log 19). -/
def Obligations.SnapshotHeaderIsStoredOrInstalled : Prop :=
  (∀ (cfg : Cfg) (sn : Snapshot) (t : Table), candidate cfg sn = some t ↔
    t.ok cfg ∧ (∀ r ∈ t.records, sn.members.toNat.testBit r.owner.val = true) ∧ sn.members ≠ 0 ∧
    t.inUse = sn.inUse.toNat ∧ fingerprintOf (some sn.digest) sn.members t.inUse t.records = sn.fingerprint ∧
    t.records.length = sn.records.length ∧
    ∀ (i : Nat) (p : RecordPart) (r : Record), sn.records[i]? = some p → t.records[i]? = some r →
      r.owner.val = p.owner.toNat ∧ r.tag.val = p.tag.toNat ∧
      r.zones = (if p.zonesPresent = true then some { lo := p.lo.toNat, hi := p.hi.toNat } else none) ∧
      r.units = p.units.toNat ∧ (r.state = .held ↔ p.held = true) ∧ r.admittedAt = p.admittedAt ∧
      r.grantedAt = if p.grantedPresent = true then some p.grantedAt else none) ∧
  (∀ (s : State) (read levels : List Bool) (f : Frame) (me : StationNo), s.hears read levels (.good f) →
    s.mem.number = some me →
    let absence := s.cfg.absenceLimit * s.cfg.beatInterval
    let told (es : List Event) := (es.foldl (fun p v => p.append s.cfg.idleTimeout v) s.port).events
    let receiving : Prop := s.cu.phase = .awaiting ∨ s.cu.phase = .receiving
    let keeps (t : State) : Prop := t.order = s.order ∧ t.table = s.table ∧ t.roster = s.roster ∧ t.slots = s.slots ∧
      t.mem = { s.mem with listen := if s.mem.listen = .stopped then .stopped else .running absence } ∧
      t.pres.beat = s.pres.beat ∧ t.pres.beatPending = s.pres.beatPending ∧
      (∀ n : StationNo, t.pres.absence[n] =
        if n = f.sender ∧ s.roster.isMember n = true ∧ n ≠ me ∧ s.pres.absence[n] ≠ .stopped then .running absence
        else s.pres.absence[n]) ∧ t.cfg = s.cfg ∧ t.line = { s.line with rx := none, awaiting := .snapPart, slot := [] }
    let ignored : Prop := ∃ t, exec (.frameEnd levels) s = .next t ∧ keeps t ∧ t.cu = s.cu ∧ t.port = s.port
    let stored (sn : Snapshot) : Prop := ∃ t, exec (.frameEnd levels) s = .next t ∧ keeps t ∧ t.port = s.port ∧
      t.cu = { s.cu with phase := .receiving, wait := .running absence, snapshot := some sn }
    let failed (why : Cause) : Prop := ∃ t, exec (.frameEnd levels) s = .next t ∧
      t.port.counters[8] = satInc s.port.counters[8] ∧ t.port.counters[7] = s.port.counters[7] ∧
      (s.cu.attempts < 2 → keeps t ∧ t.cu = { s.cu with
          attempts := s.cu.attempts + 1, snapshot := none, vetoRun := 0, syncreqPending := true
          phase := .requesting, wait := .stopped } ∧
        t.port.events =
          told [{ kind := .catchupFail, count := some (s.cu.attempts + 1), cause := some (.cause why) }]) ∧
      (2 ≤ s.cu.attempts → t.mem.state = .isolated ∧ t.order.step = .off ∧ t.cu = CatchUp.idle ∧
        t.table = Table.empty ∧ t.roster = Roster.empty)
    let completed (sn : Snapshot) : Prop :=
      let ahead := ((s.order.lastHeard.getD sn.base) - sn.base).toNat
      let run : Prop := ahead = 0 ∨ 32769 ≤ ahead ∨
        ahead ≤ 32767 ∧ ∀ k, 1 ≤ k → k ≤ ahead → ∃ h ∈ s.cu.holdBack, h.frame.seq = sn.base + BitVec.ofNat 16 k
      let present : Prop := sn.members.toNat.testBit me.val = true
      (sn.digest ≠ s.mem.ownDigest → ∃ t, exec (.frameEnd levels) s = .next t ∧ t.mem.state = .refused ∧
        t.order.step = .off ∧ t.table = Table.empty ∧ t.roster = Roster.empty ∧ t.cu = CatchUp.idle ∧
        t.port.counters = s.port.counters ∧ (∀ k : Tag, t.slots.slots[k] = Slot.empty) ∧
        ((∀ k : Tag, (s.slots.slots[k]).state = .free) → t.port.events = told
          [{ kind := .stationState, state := some .refused, cause := some (.cause .config), seq := some sn.base }])) ∧
      (sn.digest = s.mem.ownDigest → ¬ run → failed .gap) ∧
      (sn.digest = s.mem.ownDigest → run → candidate s.cfg sn = none → failed .check) ∧
      (∀ table, sn.digest = s.mem.ownDigest → run → candidate s.cfg sn = some table →
        let replaced : State :=
          { s with
            line := { s.line with rx := none, awaiting := .snapPart, slot := [] }
            cu := { s.cu with phase := .receiving, wait := .running absence, snapshot := some sn }
            table := table
            roster := { members := membersOfHeader sn.members sn.lastTaken, digest := some sn.digest }
            order := { step := .inStep, expected := sn.base + 1, lastHeard := s.order.lastHeard, rxRun := 0, ownRun := 0
                       ownRunOf := none }
            pres := { s.pres with absence := Vector.ofFn fun n =>
              if sn.members.toNat.testBit n.val = true ∧ n ≠ me then .running absence else .stopped } }
        let after := s.cu.holdBack.filter fun h =>
          decide (1 ≤ (h.frame.seq - sn.base).toNat ∧ (h.frame.seq - sn.base).toNat ≤ 32768)
        let u : State := after.foldl
          (fun v h => if v.order.step = .inStep then v.applyFrame false h.own none h.frame else v) replaced
        let idle : CatchUp := { u.cu with
          phase := .idle, syncreqPending := false, vetoRun := 0, attempts := 0, holdBack := [], wait := .stopped
          snapshot := none }
        let present : Prop := u.roster.isMember me = true
        (∀ n : StationNo, replaced.roster.members[n] = if sn.members.toNat.testBit n.val then
          let at? := (sn.lastTaken[((List.range n.val).filter fun k => sn.members.toNat.testBit k).length]?).getD 0
          some { joinedAt := at?, lastTaken := at? } else none) ∧
        ∃ t, exec (.frameEnd levels) s = .next t ∧ t.cfg = s.cfg ∧ t.port.counters[7] = satInc u.port.counters[7] ∧
          (∀ k : Fin 28, k ≠ 7 → t.port.counters[k] = u.port.counters[k]) ∧
          (u.order.step ≠ .inStep → t.order = u.order ∧ t.table = u.table ∧ t.roster = u.roster ∧ t.mem = u.mem ∧
            t.slots = u.slots ∧ t.cu = idle ∧ t.port.events = u.port.events) ∧
          (u.order.step = .inStep → u.mem.state = .joining ∨ (u.mem.state = .member ∨ u.mem.state = .leaving) ∧ present →
            let row (k : Tag) : Slot × List Event :=
              let x := u.slots.slots[k]
              let hold : Timer := if x.holdLimit = 0 then .stopped else .running x.holdLimit
              let note (kind : EventKind) (c : Option Cause) (seq : Option Seq) : Event :=
                { kind := kind, tag := some k, cause := c.map .cause, seq := seq }
              let record : Option (ClaimState × Seq × Option Seq) :=
                (u.table.find me k.val).map fun r => (r.state, r.admittedAt, r.grantedAt)
              match x.state, record with
              | .free, _ | .pending, _ | .cancelling, some (.waiting, _) | .releasing, some (.waiting, _) => (x, [])
              | .waiting, some (.waiting, at?, _) => ({ x with admittedAt := some at? }, [])
              | .waiting, some (.held, at?, g) =>
                ({ x with state := .held, admittedAt := some at?, grantedAt := g, mark := .none, holdTimer := hold },
                  [note .granted none g])
              | .held, some (.held, at?, g) => ({ x with admittedAt := some at?, grantedAt := g }, [])
              | .held, some (.waiting, at?, _) =>
                ({ x with state := .waiting, admittedAt := some at?, grantedAt := none, holdTimer := .stopped },
                  [note .admitted none (some at?)])
              | .waiting, none | .held, none => (Slot.empty, [note .lost (some .resync) (some sn.base)])
              | .cancelling, some (.held, _, g) =>
                ({ x with state := .held, grantedAt := g, mark := .none, holdTimer := hold },
                  [note .granted none g, note .tooLate none none])
              | .cancelling, none => (Slot.empty, [note .withdrawn (some .gone) none])
              | .releasing, some (.held, _, g) => ({ x with grantedAt := g }, [])
              | .releasing, none => (Slot.empty, [note .freed (some .gone) none])
            let entryGoes (k : Tag) : Prop := (u.slots.slots[k]).state = .releasing ∧ u.table.find me k.val = none ∨
              (u.slots.slots[k]).state = .cancelling ∧ ∀ r, u.table.find me k.val = some r → r.state = .held
            t.order = { u.order with lastHeard := some (u.order.expected - 1) } ∧ t.table = u.table ∧
              t.roster = u.roster ∧ t.cu = idle ∧ t.mem.state = u.mem.state ∧
              (u.mem.state = .joining → t.mem.pendingJoin = true) ∧
              (u.mem.state = .member → t.pres.beat = .running s.cfg.beatInterval) ∧
              (∀ n : StationNo, n ≠ f.sender → t.pres.absence[n] = u.pres.absence[n]) ∧
              (∀ k : Tag, t.slots.slots[k] = (row k).1) ∧
              (∀ q, q ∈ t.slots.queue ↔ q ∈ u.slots.queue ∧ (q.purged = true ∨ ¬ entryGoes q.tag)) ∧
              t.port.events = u.eventsWith ((List.finRange 8).flatMap fun k => (row k).2)) ∧
          (u.order.step = .inStep → u.mem.state = .member → ¬ present →
            t.order = { u.order with lastHeard := some (u.order.expected - 1) } ∧ t.table = u.table ∧
              t.roster = u.roster ∧ t.mem.state = .joining ∧ t.mem.pendingJoin = true ∧ t.cu = CatchUp.idle ∧
              t.pres.beat = .stopped ∧ (∀ k : Tag, t.slots.slots[k] = Slot.empty) ∧
              (∀ q ∈ t.slots.queue, q.purged = true) ∧ t.port.events = u.eventsWith
                ({ kind := .stationState, state := some .joining, cause := some (.cause .removed), seq := some sn.base } ::
                  u.slotEnds .lost .removed sn.base)) ∧
          (u.order.step = .inStep → u.mem.state = .leaving → ¬ present →
            t.mem.state = .detached ∧ t.outOfGroup ∧ t.port.events = u.eventsWith
              ({ kind := .stationState, state := some .detached, cause := some (.cause .removed), seq := some sn.base } ::
                u.slotEnds .lost .removed sn.base)))
    (∀ target count d m u fp lt, f.body = .snapHeader target count d m u fp lt →
      let sn : Snapshot :=
        { sender := f.sender, base := f.seq, count := count.toNat, digest := d, members := m, inUse := u
          fingerprint := fp, lastTaken := lt, records := [], next := 1 }
      (target.toNat ≠ me.val ∨ ¬ receiving → ignored) ∧
      (target.toNat = me.val → receiving → count ≠ 0x01#8 → stored sn) ∧
      (target.toNat = me.val → receiving → count = 0x01#8 → completed sn)) ∧
    ∀ target index count p, f.body = .snapRecord target index count p →
      (target.toNat ≠ me.val ∨ ¬ receiving → ignored) ∧
      (target.toNat = me.val → s.cu.phase = .awaiting → failed .part) ∧
      (∀ sn, s.cu.phase = .receiving → s.cu.snapshot = some sn → target.toNat = me.val →
        let inTurn : Prop := index.toNat = sn.next ∧ count.toNat = sn.count ∧ f.seq = sn.base
        let grown := { sn with records := sn.records ++ [p], next := sn.next + 1 }
        (sn.sender ≠ f.sender → ignored) ∧
        (sn.sender = f.sender → ¬ inTurn → failed .part) ∧
        (sn.sender = f.sender → inTurn → sn.next + 1 ≠ sn.count → stored grown) ∧
        (sn.sender = f.sender → inTurn → sn.next + 1 = sn.count → completed grown))) ∧
  ∀ (s : State) (f : Frame), s.order.step = .inStep →
    let held (own : Bool) := s.applyFrame false own none f
    let passed : State :=
      { s with
        order := { s.order with expected := f.seq + 1, lastHeard := some f.seq }
        roster := { s.roster with members := Vector.ofFn fun n => if n = f.sender then
          (s.roster.members[n]).map fun m => { m with lastTaken := f.seq } else s.roster.members[n] } }
    (∀ others, s.readsSlot (.good f) .accept others true true → s.line.faulted = none → s.line.tx = .idle →
      f.body.kind ≠ .beat → f.body.kind ≠ .syncreq → ∃ t, exec (.frameOutcome others) s = .next t ∧
        t.order = (held false).order ∧ t.table = (held false).table ∧ t.roster = (held false).roster ∧
        t.mem = (held false).mem ∧ t.cu = (held false).cu ∧ t.slots = (held false).slots ∧
        t.port.events = (held false).port.events ∧ t.pres.beat = (held false).pres.beat ∧
        ∀ n : StationNo, n ≠ f.sender → t.pres.absence[n] = (held false).pres.absence[n]) ∧
    ((∃ n, s.roster.isMember n = true ∧ n ≠ f.sender) → f.body.kind = .beat ∨ f.body.kind = .syncreq →
      (s.mem.number ≠ some f.sender → held false = passed) ∧
      (s.mem.number = some f.sender → held false = passed.emit
        { kind := .duplicate, seq := some f.seq, cause := some (.kind f.body.kind) }) ∧
      (s.pres.beat = .stopped → held true = { passed with pres := { s.pres with beatPending := false } })) ∧
    (f.body = .syncreq → (∀ n : StationNo, s.roster.isMember n = true → n = f.sender) → s.mem.number ≠ some f.sender →
      (held false).mem.state = .listening ∧ (held false).outOfGroup ∧ (held false).port.events = s.eventsWith
        ({ kind := .stationState, state := some .listening, cause := some (.cause .dissolved), seq := some f.seq } ::
          s.slotEnds .lost .dissolved f.seq))


/-! ### What the group's verdict does to the slots -/

/-- OWN_FRAME_OUTCOME, slot recessive, of the own RELEASE of a slot, and of the own WITHDRAW of a slot that is CANCELLING,
RELEASING with the mark, or HELD over it: the slot ends, or, when the WITHDRAW came too late, is HELD or has a RELEASE
queued. Whatever frame, own or heard, leaves the station state, the slot of every own record that it grants, and of every one
that a frame bearing the own number removes, takes its row of R151 or R154, in report order. A FAULT kept during a heard frame
finds its entry still on the line in these rows, and reaches it after them. That a LEAVE bearing the own number appends no
PEER_OUT is the model's choice (log 28). -/
def Obligations.OwnReleaseWithdrawAndGrantSettleTheSlot : Prop :=
  (∀ (s : State) (a : Attempt) (levels : List Bool) (me : StationNo) (e : Entry) (k : EntryKind),
    s.completes a levels true true → s.order.step = .inStep → s.mem.number = some me →
    s.roster.isMember me = true → a.source = .queue e.id k →
    s.slots.queue.find? (fun q => q.id = e.id) = some e → e.purged = false → a.frame.sender = me →
    let report := (s.table.apply s.cfg s.roster.isMember a.frame).2
    let x := s.slots.slots[e.tag]
    let seq := a.frame.seq
    let left := s.slots.queue.filter fun q => decide (q.id ≠ e.id)
    let note (k : EventKind) (c : Option Cause) (n : Option Seq) : Event :=
      { kind := k, tag := some e.tag, cause := c.map .cause, seq := n }
    let told (es : List Event) := (es.foldl (fun p v => p.append s.cfg.idleTimeout v) s.port).events
    let stored : Cause := match x.cause with
      | some .hold => .hold
      | some .line => .line
      | some .surrender => .surrender
      | some .host | none => .host
    let ends (t : State) (y : Slot) (es : List Event) : Prop :=
      t.slots.slots[e.tag] = y ∧ (s.table.ok s.cfg → State.settlesTo
        { s with line := s.line.afterOutcome, slots := { s.slots with slots := s.slots.slots.set e.tag y, queue := left } }
        t me seq [] report.grants es)
    let releases (t : State) (g : Option Seq) (es : List Event) : Prop :=
      let y : Slot := { x with state := .releasing, grantedAt := g, mark := .none, holdTimer := .stopped }
      t.port.events = told es ∧ t.slots = { s.slots with
        slots := s.slots.slots.set e.tag y
        queue := left ++ [{ id := s.slots.nextId, kind := .release, tag := e.tag, purged := false }]
        nextId := s.slots.nextId + 1 }
    (a.frame.body = .release (byteOf e.tag.val) →
      ∃ t, exec (.ownFrameOutcome levels) s = .next t ∧
        t.table = (s.table.apply s.cfg s.roster.isMember a.frame).1 ∧ t.order.expected = seq + 1 ∧ t.mem = s.mem ∧
        ends t Slot.empty [note .freed (some stored) (some seq)]) ∧
    (a.frame.body = .withdraw (byteOf e.tag.val) →
      ∃ t, exec (.ownFrameOutcome levels) s = .next t ∧
        t.table = (s.table.apply s.cfg s.roster.isMember a.frame).1 ∧
        t.order.expected = seq + 1 ∧ t.mem = s.mem ∧
        (report.tag = some .removed ∨ report.tag = some .absent →
          (x.state = .cancelling → x.mark = .none → ends t Slot.empty [note .withdrawn (some .host) (some seq)]) ∧
          (x.state = .cancelling ∨ x.state = .releasing → x.mark = .releaseAfter →
            ends t Slot.empty [note .freed (some stored) (some seq)]) ∧
          (x.state = .held → ends t Slot.empty [note .withdrawn (some .gone) (some seq)])) ∧
        (report.tag = some .stillHeld → t.table = s.table ∧ ∃ r, s.table.find me e.tag.val = some r ∧
          (x.state = .cancelling → x.mark = .none →
            ends t { x with
                state := .held, grantedAt := r.grantedAt, mark := .none
                holdTimer := if x.holdLimit = 0 then .stopped else .running x.holdLimit }
              [note .granted none r.grantedAt, note .tooLate none (some seq)]) ∧
          (x.state = .cancelling → x.mark = .releaseAfter →
            releases t r.grantedAt [note .granted none r.grantedAt, note .tooLate none (some seq)]) ∧
          (x.state = .releasing → x.mark = .releaseAfter →
            releases t x.grantedAt [note .tooLate none (some seq)]) ∧
          (x.state = .held → ends t { x with mark := .none } [note .tooLate none (some seq)])))) ∧
  (∀ (s : State) (a : Attempt) (levels : List Bool) (me x other : StationNo), s.completes a levels true true →
    s.order.step = .inStep → s.mem.state = .member → s.mem.number = some me → a.source = .evict x → a.frame.sender = me →
    a.frame.body = .evict (byteOf x.val) → x ≠ me → s.roster.isMember x = true → s.roster.isMember other = true →
    other ≠ x → s.table.ok s.cfg →
    let report := (s.table.apply s.cfg s.roster.isMember a.frame).2
    ∃ t, exec (.ownFrameOutcome levels) s = .next t ∧ t.mem = s.mem ∧
      State.settlesTo { s with line := s.line.afterOutcome } t me a.frame.seq [] report.grants
        [{ kind := .peerOut, station := some x, cause := some (.cause .evicted), seq := some a.frame.seq }]) ∧
  ∀ (s : State) (f : Frame) (others : List Bool) (me : StationNo),
    s.readsSlot (.good f) .accept others true true → s.order.step = .inStep → s.mem.number = some me →
    s.mem.state = .joining ∨ s.mem.state = .member ∨ s.mem.state = .leaving → s.table.ok s.cfg →
    f.body.kind = .claim ∨ f.body.kind = .release ∨ f.body.kind = .withdraw ∨ f.body.kind = .leave ∨
      f.body.kind = .join ∨ f.body.kind = .evict →
    let report := (s.table.apply s.cfg s.roster.isMember f).2
    let peer (k : EventKind) (x : StationNo) (c : Option Cause) : Event :=
      { kind := k, station := some x, cause := c.map .cause, seq := some f.seq }
    let member (x : StationNo) : Bool := s.roster.isMember x
    let news : List Event := match f.body with
      | .join d =>
        if f.sender = me then []
        else if s.roster.digest = some d then
          [peer .peerIn f.sender (some (if member f.sender then .renewed else .new))]
        else [peer .peerRefused f.sender none]
      | .leave => if f.sender ≠ me ∧ member f.sender = true then [peer .peerOut f.sender (some .left)] else []
      | .evict target =>
        ((List.finRange 16).filter fun x => decide (x.val = target.toNat ∧ x ≠ f.sender) && member x).map fun x =>
          peer .peerOut x (some .evicted)
      | _ => []
    let twin : List Event :=
      if f.sender = me then [{ kind := .duplicate, seq := some f.seq, cause := some (.kind f.body.kind) }] else []
    let settled (t : State) : Prop := s.settlesTo t me f.seq report.removed report.grants (news ++ twin)
    (s.line.faulted = none → ∃ t, exec (.frameOutcome others) s = .next t ∧ (t.mem.state = s.mem.state → settled t)) ∧
    (∀ fa w, s.line.faulted = some fa →
      exec (.frameOutcome others) { s with line := { s.line with faulted := none } } = .next w →
      w.mem.state = s.mem.state → ∃ u t, exec (.frameOutcome others) s = .next t ∧
        u = { w with slots := u.slots, port := { w.port with events := u.port.events, idleTimer := u.port.idleTimer } } ∧
        settled u ∧ u.returnsFault t fa.attempt)

/-! ### Timers -/

/-- The expiry of the running listen, beat, absence and idle timers. -/
def Obligations.ListenBeatAbsenceAndIdleTimersExpire : Prop :=
  ∀ (s : State) (left : Nat), s.power = .on →
    (s.mem.listen = .running left → s.mem.state = .listening →
      exec .listenTimerExpiry s = .next (State.emit
        { s with mem := { s.mem with state := .founding, listen := .stopped, pendingFound := true } }
        { kind := .stationState, state := some .founding, cause := some (.cause .listenTimeout) })) ∧
    (s.pres.beat = .running left →
      exec .beatTimerExpiry s = .next
        { s with pres := { s.pres with beat := .running s.cfg.beatInterval, beatPending := true } }) ∧
    (∀ x : StationNo, s.pres.absence[x] = .running left →
      (s.mem.state = .member → s.order.step = .inStep →
        exec (.absenceTimerExpiry x) s = .next
          { s with pres := { s.pres with absence := s.pres.absence.set x .expired } }) ∧
      (¬ (s.mem.state = .member ∧ s.order.step = .inStep) →
        exec (.absenceTimerExpiry x) s = .next
          { s with pres := { s.pres with
              absence := s.pres.absence.set x (.running (s.cfg.absenceLimit * s.cfg.beatInterval)) } })) ∧
    (s.port.idleTimer = .running left →
      exec .idleTimerExpiry s = .next { s with port := { s.port with idleTimer := .stopped, idleFlag := true } })

/-- CATCHUP_WAIT_EXPIRY: a failed attempt with cause TIMEOUT. The first two send the requester back to REQUESTING, with
the hold-back queue kept; the third isolates the station. -/
def Obligations.CatchupWaitExpiryFailsTheAttempt : Prop :=
  ∀ (s : State) (left : Nat), s.power = .on → s.cu.wait = .running left →
    let failed := State.bump
      (s.emit { kind := .catchupFail, count := some (s.cu.attempts + 1), cause := some (.cause .timeout) }) .attemptsFailed
    (s.cu.attempts < 2 →
      exec .catchupWaitExpiry s = .next
        { failed with cu := { s.cu with
            attempts := s.cu.attempts + 1, snapshot := none, vetoRun := 0, syncreqPending := true, phase := .requesting
            wait :=
              if s.cu.phase = .requesting ∧ s.order.lastHeard = none then
                .running (s.cfg.absenceLimit * s.cfg.beatInterval)
              else .stopped } }) ∧
    (2 ≤ s.cu.attempts →
      ∃ t, exec .catchupWaitExpiry s = .next t ∧ t.mem.state = .isolated ∧ t.order.step = .off ∧
        t.order.expected = 0 ∧ t.order.lastHeard = s.order.lastHeard ∧ t.table = Table.empty ∧
        t.roster = Roster.empty ∧ t.pres = Presence.stopped ∧ t.cu = CatchUp.idle ∧ t.mem.listen = .stopped ∧
        t.mem.pendingFound = false ∧ t.mem.pendingJoin = false ∧ t.mem.pendingLeave = false ∧
        (∀ k : Tag, t.slots.slots[k] = Slot.empty) ∧ (∀ e ∈ t.slots.queue, e.purged = true) ∧
        t.port.counters = failed.port.counters ∧ t.line = s.line ∧ t.cfg = s.cfg ∧ t.zl = s.zl ∧
        t.slots.hostCheck = s.slots.hostCheck ∧
        ((∀ k : Tag, (s.slots.slots[k]).state = .free) →
          t.port.events = (failed.port.append s.cfg.idleTimeout
            { kind := .stationState, state := some .isolated, cause := some (.cause .catchup)
              seq := s.order.lastHeard }).events))

/-- HOLD_TIMER_EXPIRY: HOLD_EXPIRED, then the HELD slot is freed with cause HOLD. HOST_CHECK_EXPIRY: HOST_SILENT, a
surrender, and the timer stands expired. -/
def Obligations.HoldAndHostCheckExpiriesGiveUpSlots : Prop :=
  (∀ (s : State) (k : Tag) (left : Nat), s.power = .on → (s.slots.slots[k]).state = .held →
    (s.slots.slots[k]).holdTimer = .running left →
    let told := s.emit { kind := .holdExpired, tag := some k }
    let x := { s.slots.slots[k] with
      state := .releasing, mark := .none, cause := some .hold, holdTimer := .stopped }
    (s.slots.entryOf k = none →
      exec (.holdTimerExpiry k) s = .next
        { told with slots := { s.slots with
            slots := s.slots.slots.set k x
            queue := s.slots.queue ++ [{ id := s.slots.nextId, kind := .release, tag := k, purged := false }]
            nextId := s.slots.nextId + 1 } }) ∧
    (s.slots.entryOf k ≠ none →
      exec (.holdTimerExpiry k) s = .next
        { told with slots := { s.slots with slots := s.slots.slots.set k { x with mark := .releaseAfter } } })) ∧
  ∀ (s : State) (left : Nat), s.power = .on → s.slots.hostCheck = .running left →
    ∃ t, exec .hostCheckExpiry s = .next t ∧ t.slots.hostCheck = .expired ∧
      (∀ k : Tag,
        (t.slots.slots[k]).state ≠ .held ∧ (t.slots.slots[k]).state ≠ .waiting ∧
        ((s.slots.slots[k]).state = .waiting ∨ (s.slots.slots[k]).state = .held ∧ s.slots.entryOf k = none →
          t.slots.slots[k] = { s.slots.slots[k] with
            state := .releasing, mark := .none, cause := some .surrender, holdTimer := .stopped }) ∧
        ((s.slots.slots[k]).state = .free ∨ (s.slots.slots[k]).state = .releasing →
          t.slots.slots[k] = s.slots.slots[k])) ∧
      ((∀ k : Tag, (s.slots.slots[k]).state ≠ .pending) →
        t.port = (s.emit { kind := .hostSilent }).port) ∧
      t.table = s.table ∧ t.roster = s.roster ∧ t.order = s.order ∧ t.mem = s.mem ∧ t.pres = s.pres ∧ t.cu = s.cu ∧
      t.line = s.line ∧ t.zl = s.zl ∧ t.cfg = s.cfg

/-! ### Zone lines -/

/-- RELEASE_IN_PIN_CHANGE and QUALIFICATION_EXPIRY: a release input is qualified for 1 ms, and an edge to its asserted level
is handed on. RELEASE_EDGE: the edge frees the own HELD slot that covers its zone, or is counted. The list of edges on their way
is DEDUCED (log 5). -/
def Obligations.ReleaseInputsAreQualifiedAndActOnce : Prop :=
  (∀ (s : State) (l : LineNo) (high : Bool),
    let present := { s.zl with pinIn := s.zl.pinIn.set l high }
    (s.power ≠ .on ∨ (s.cfg.lines[l]).mode ≠ .releaseIn ∨ s.zl.pinIn[l] = high →
      exec (.releaseInPinChange l high) s = .next { s with zl := present }) ∧
    (s.power = .on → (s.cfg.lines[l]).mode = .releaseIn → s.zl.pinIn[l] ≠ high →
      (s.zl.settled[l] = high →
        exec (.releaseInPinChange l high) s = .next { s with zl := { present with qual := s.zl.qual.set l .stopped } }) ∧
      (s.zl.settled[l] ≠ high → s.zl.qual[l] = .stopped →
        exec (.releaseInPinChange l high) s = .next
          { s with zl := { present with qual := s.zl.qual.set l (.running 1) } }))) ∧
  (∀ (s : State) (l : LineNo) (left : Nat), s.power = .on → (s.cfg.lines[l]).mode = .releaseIn →
    s.zl.qual[l] = .running left →
    exec (.qualificationExpiry l) s = .next
      { s with zl := { s.zl with
          settled := s.zl.settled.set l (!s.zl.settled[l])
          qual := s.zl.qual.set l .stopped
          edges :=
            if (!s.zl.settled[l]) = decide ((s.cfg.lines[l]).polarity = .high) then
              s.zl.edges ++ [(s.cfg.lines[l]).zone]
            else s.zl.edges } }) ∧
  ∀ (s : State) (z : Nat), s.power = .on → z ∈ s.zl.edges →
    let s1 := { s with zl := { s.zl with edges := s.zl.edges.erase z } }
    let covering (k : Tag) : Prop := (s.slots.slots[k]).state = .held ∧
      ∃ g, (s.slots.slots[k]).zones = some g ∧ g.lo ≤ z ∧ z ≤ g.hi
    ((∀ k, ¬ covering k) → exec (.releaseEdge z) s = .next (s1.bump .ignoredEdges)) ∧
    (∀ k, covering k → (∀ j, covering j → k ≤ j) →
      let x := { s.slots.slots[k] with
        state := .releasing, mark := .none, cause := some .line, holdTimer := .stopped }
      (s.slots.entryOf k = none →
        exec (.releaseEdge z) s = .next
          { s1 with slots := { s.slots with
              slots := s.slots.slots.set k x
              queue := s.slots.queue ++ [{ id := s.slots.nextId, kind := .release, tag := k, purged := false }]
              nextId := s.slots.nextId + 1 } }) ∧
      (s.slots.entryOf k ≠ none →
        exec (.releaseEdge z) s = .next
          { s1 with slots := { s.slots with slots := s.slots.slots.set k { x with mark := .releaseAfter } } }))

/-- A grant line is asserted exactly while MEMBER, IN_STEP and an own HELD slot covers its zone; a member line exactly while
MEMBER and IN_STEP; the pin follows mode, polarity and level. -/
def Obligations.ZoneLinesShowWhatTheStationHolds : Prop :=
  ∀ (s : State) (l : LineNo),
    let c := s.cfg.lines[l]
    let inGroup : Prop := s.mem.state = .member ∧ s.order.step = .inStep
    let held : Prop := ∃ (k : Tag) (g : Range), (s.slots.slots[k]).state = .held ∧
      (s.slots.slots[k]).zones = some g ∧ g.lo ≤ c.zone ∧ c.zone ≤ g.hi
    (c.mode = .grantOut → (s.lineAsserted l = some true ↔ inGroup ∧ held) ∧ s.lineAsserted l ≠ none) ∧
    (c.mode = .memberOut → (s.lineAsserted l = some true ↔ inGroup) ∧ s.lineAsserted l ≠ none) ∧
    (c.mode = .off ∨ c.mode = .releaseIn → s.lineAsserted l = none ∧ s.pinDrive l = .highZ) ∧
    (s.power = .on →
      (c.polarity = .high → s.lineAsserted l = some true → s.pinDrive l = .high) ∧
      (c.polarity = .high → s.lineAsserted l = some false → s.pinDrive l = .low) ∧
      (c.polarity = .low → s.lineAsserted l = some true → s.pinDrive l = .low) ∧
      (c.polarity = .low → s.lineAsserted l = some false → s.pinDrive l = .high))

/-! ### The reservation table -/

/-- A taken CLAIM: the claim outcome by the first case that applies. Only ADMITTED changes the table: a WAITING record is
appended and one grant evaluation runs with the CLAIM's seq. -/
def Obligations.ClaimIsAdmittedByTheFirstCase : Prop :=
  ∀ (t : Table) (cfg : Cfg) (isMember : StationNo → Bool) (f : Frame) (tag : Byte) (zp : Bool) (lo hi : Byte)
    (units : Half), f.body = .claim tag zp lo hi units →
    let o := f.sender
    let out := t.apply cfg isMember f
    let duplicate : Prop := ∃ r ∈ t.records, r.owner = o ∧ r.tag.val = tag.toNat
    let outOfRange : Prop := 7 < tag.toNat ∨ zp = true ∧ hi.toNat < lo.toNat ∨ zp = true ∧ cfg.zoneCount ≤ hi.toNat ∨
      cfg.poolCapacity < units.toNat ∨ zp = false ∧ units = 0
    let full : Prop := 48 ≤ t.records.length ∨ 8 ≤ (t.records.filter fun r => r.owner = o).length
    let record : Record :=
      { owner := o, tag := Fin.ofNat 8 tag.toNat, zones := if zp then some { lo := lo.toNat, hi := hi.toNat } else none
        units := units.toNat, state := .waiting, admittedAt := f.seq, grantedAt := none }
    let evaluated := Table.evaluate { t with records := t.records ++ [record] } cfg.poolCapacity f.seq
    (isMember o = false → out = (t, { claim := some .ignored })) ∧
    (isMember o = true → duplicate → out = (t, { claim := some (.refused .duplicate) })) ∧
    (isMember o = true → ¬ duplicate → outOfRange → out = (t, { claim := some (.refused .range) })) ∧
    (isMember o = true → ¬ duplicate → ¬ outOfRange → full → out = (t, { claim := some (.refused .full) })) ∧
    (isMember o = true → ¬ duplicate → ¬ outOfRange → ¬ full →
      out = (evaluated.1, { claim := some .admitted, grants := evaluated.2 }))

/-- A taken RELEASE, WITHDRAW, LEAVE, JOIN or EVICT at the table: the records it removes, in their order, with their zones
freed, their units returned and one grant evaluation with the frame's seq; a HELD record outlives a WITHDRAW; and where
nothing is removed the table stays and no evaluation runs. -/
def Obligations.RemovalsActByTheirRules : Prop :=
  ∀ (t : Table) (cfg : Cfg) (isMember : StationNo → Bool) (f : Frame),
    let out := t.apply cfg isMember f
    let stays (tag : Option TagOutcome) : Prop := out = (t, { tag := tag })
    let removes (gone : Record → Bool) (tag : Option TagOutcome) : Prop :=
      let removed := t.records.filter gone
      let freed (z : Fin 32) : Prop := ∃ r ∈ removed, r.state = .held ∧ r.covers z.val = true
      ∃ u : Table, u.records = t.records.filter (fun r => !gone r) ∧
        (∀ z, freed z → u.zoneMap[z] = none) ∧ (∀ z, ¬ freed z → u.zoneMap[z] = t.zoneMap[z]) ∧
        u.inUse = t.inUse - ((removed.filter fun r => decide (r.state = .held)).map Record.units).sum ∧
        out = ((u.evaluate cfg.poolCapacity f.seq).1,
          { tag := tag, removed := removed, grants := (u.evaluate cfg.poolCapacity f.seq).2 })
    let removesAllOf (x : StationNo) : Prop :=
      ((∃ r ∈ t.records, r.owner = x) → removes (fun r => decide (r.owner = x)) none) ∧
      ((∀ r ∈ t.records, r.owner ≠ x) → stays none)
    let named (tag : Byte) (r : Record) : Bool := decide (r.owner = f.sender ∧ r.tag.val = tag.toNat)
    (∀ tag, f.body = .release tag →
      ((∃ r ∈ t.records, named tag r = true) → removes (named tag) (some .removed)) ∧
      ((∀ r ∈ t.records, named tag r = false) → stays (some .absent))) ∧
    (∀ tag, f.body = .withdraw tag →
      ((∀ r ∈ t.records, named tag r = false) → stays (some .absent)) ∧
      ∀ before r after, t.records = before ++ r :: after → (∀ q ∈ before, named tag q = false) → named tag r = true →
        (r.state = .waiting → removes (named tag) (some .removed)) ∧ (r.state = .held → stays (some .stillHeld))) ∧
    (f.body = .leave ∨ (∃ d, f.body = .join d) →
      (isMember f.sender = true → removesAllOf f.sender) ∧ (isMember f.sender = false → stays none)) ∧
    (∀ target, f.body = .evict target →
      (∀ x : StationNo, x.val = target.toNat → isMember x = true → x ≠ f.sender → removesAllOf x) ∧
      ((∀ x : StationNo, x.val = target.toNat → isMember x = false ∨ x = f.sender) → stays none)) ∧
    (f.body.kind = .beat ∨ f.body.kind = .syncreq ∨ f.body.kind = .found → stays none)

/-- One grant evaluation, over any table: it changes state and granted-at of WAITING records only, in place; no grant
overtakes an earlier record that is left waiting and wants a common zone, nor, among claims for units, any earlier one
that is left waiting; and every record left waiting is blocked by a held zone, by an earlier one left waiting, or by the
pool. -/
def Obligations.GrantEvaluationNeverOvertakes : Prop :=
  ∀ (t : Table) (cap : Nat) (seq : Seq),
    let t' := (t.evaluate cap seq).1
    let left (i : Nat) (r : Record) : Prop :=
      t.records[i]? = some r ∧ r.state = .waiting ∧ t'.records[i]? = some r
    let granted (i : Nat) (r : Record) : Prop :=
      t.records[i]? = some r ∧ r.state = .waiting ∧
        t'.records[i]? = some { r with state := .held, grantedAt := some seq }
    t'.records.length = t.records.length ∧
    (∀ (i : Nat) (r : Record), t.records[i]? = some r → r.state = .held → t'.records[i]? = some r) ∧
    (∀ (i : Nat) (r : Record), t.records[i]? = some r → r.state = .waiting → left i r ∨ granted i r) ∧
    (∀ i j a b, i < j → left i a → granted j b →
      (∀ z : Fin 32, ¬ (a.covers z.val = true ∧ b.covers z.val = true)) ∧ (0 < a.units → b.units = 0)) ∧
    (∀ j b, left j b →
      (∃ z : Fin 32, b.covers z.val = true ∧ t'.zoneMap[z] ≠ none) ∨
      (∃ i a, i < j ∧ left i a ∧ ((∃ z : Fin 32, a.covers z.val = true ∧ b.covers z.val = true) ∨
        0 < a.units ∧ 0 < b.units)) ∨
      0 < b.units ∧ cap < t'.inUse + b.units) ∧
    (∀ i j a b, i < j → granted i a → granted j b →
      ∀ z : Fin 32, ¬ (a.covers z.val = true ∧ b.covers z.val = true)) ∧
    (∀ z : Fin 32, t.zoneMap[z] ≠ none → t'.zoneMap[z] = t.zoneMap[z]) ∧
    (t.inUse ≤ cap → t'.inUse ≤ cap)

/-! ### Event queue -/

/-- An append acts by the depth of the queue: appended up to 30, an OVERFLOW record in its place at 31, counted in the newest
record at 32. The append that finds the queue empty starts the idle timer when its period is not 0. -/
def Obligations.EventAppendActsByTheDepth : Prop :=
  ∀ (s : State) (e : Event),
    s.emit e = { s with port := { s.port with
      events := (s.emit e).port.events, idleTimer := (s.emit e).port.idleTimer } } ∧
    (s.port.events.length ≤ 30 → (s.emit e).port.events = s.port.events ++ [e]) ∧
    (s.port.events.length = 31 →
      (s.emit e).port.events = s.port.events ++ [{ kind := .overflow, count := some 1 }]) ∧
    (∀ older newest n, s.port.events = older ++ [newest] → older.length = 31 → newest.count = some n →
      (s.emit e).port.events = older ++ [{ newest with count := some (min (n + 1) 255) }]) ∧
    (s.port.events = [] → s.cfg.idleTimeout ≠ 0 → (s.emit e).port.idleTimer = .running s.cfg.idleTimeout) ∧
    (s.port.events ≠ [] ∨ s.cfg.idleTimeout = 0 → (s.emit e).port.idleTimer = s.port.idleTimer)

/-! ### Bits of a frame -/

/-- Every frame that the layouts can carry is heard by a receiver of its undisturbed levels as that very frame, and its end
shows in the last of those levels but one, the sixth recessive bit time after its delimiter's dominant bit. -/
def Obligations.FrameLevelsReadBack : Prop :=
  ∀ f : Frame, f.body.sendable = true →
    receive f.levels = .good f ∧ receive f.levels.dropLast = .good f ∧ endsAtRunOf true f.levels.dropLast = true

/-- The check value of a string differs from that of the string with one bit changed. -/
def Obligations.CheckValueSeesEverySingleBit : Prop :=
  ∀ (before after : List Bool) (b : Bool),
    checkValue (before ++ b :: after) ≠ checkValue (before ++ (!b) :: after)

/-! ### Invariants -/

/-- Every step keeps the bounds: veto runs, attempts and queues, the serve with its buffer, the event queue with its OVERFLOW
record, the idle flag and timer, and the agreement of line view, transmitter and levels read. -/
def Obligations.EveryStepKeepsTheBounds : Prop :=
  ∀ s t : State, step s = .next t →
    (s.boundsOk → t.boundsOk) ∧ (s.servingOk → t.servingOk) ∧ (s.eventsOk → t.eventsOk) ∧
      (s.idleOk → t.idleOk) ∧ (s.lineOk → t.lineOk)

/-- Every step keeps the agreement of station state, step state, catch-up phase, configuration lock and listen timer. -/
def Obligations.EveryStepKeepsTheStanding : Prop :=
  ∀ s t : State, s.standingOk → step s = .next t → t.standingOk

/-- Every step keeps the reservation table's limits, its zone map and its pool in use, and every owner a member. -/
def Obligations.EveryStepKeepsTheTable : Prop :=
  ∀ s t : State, s.standingOk → s.table.ok s.cfg → s.ownersOk → step s = .next t → t.table.ok t.cfg ∧ t.ownersOk

/-- Every step keeps the presence timers in line with the roster and with MEMBER and IN_STEP. -/
def Obligations.EveryStepKeepsThePresence : Prop :=
  ∀ s t : State, s.standingOk → s.presenceOk → step s = .next t → t.presenceOk

/-- Every step keeps the configuration in its ranges. While the configuration is locked, a step leaves it as it is or is a
reset that leaves the station IDLE and unlocked. -/
def Obligations.EveryStepKeepsTheConfiguration : Prop :=
  ∀ s t : State, step s = .next t →
    (s.cfg.ok → t.cfg.ok) ∧ (s.mem.locked = true → t.cfg = s.cfg ∨ t.mem.locked = false ∧ t.mem.state = .idle)

/-- State.reset meets every invariant. -/
def Obligations.ResetMeetsTheInvariants : Prop :=
  State.reset.boundsOk ∧ State.reset.servingOk ∧ State.reset.eventsOk ∧ State.reset.idleOk ∧ State.reset.standingOk ∧
    State.reset.table.ok State.reset.cfg ∧ State.reset.ownersOk ∧ State.reset.presenceOk ∧ State.reset.cfg.ok ∧
    State.reset.lineOk

/-! ### Frames of whole families -/

/-- The line's commands and the expiries touch nothing on the host's side but events, counters, idle timer and slots; no
command touches the waiting queue; and a part that does not run takes a reset, a loss of supply and a change at a zone
pin only. -/
def Obligations.LineAndTimerCommandsLeaveTheHostSide : Prop :=
  ∀ (c : Instr) (s t : State), exec c s = .next t →
    t.pending = s.pending ∧
    (requestOf c = none → (∀ x h, c ≠ .powerOn x h) → (∀ x h, c ≠ .resetPin x h) → c ≠ .resetPinAsserted →
      c ≠ .powerLoss → c ≠ .ssnFallingEdge → (∀ b k, c ≠ .transactionTake b k) → (∀ b k, c ≠ .statusRead b k) →
      c ≠ .nop → (∀ w, c ≠ .fetch w) →
      t.power = s.power ∧ t.cfg = s.cfg ∧ t.freeCount = s.freeCount ∧ t.mem.locked = s.mem.locked ∧
      t.mem.ownDigest = s.mem.ownDigest ∧ t.port.request = s.port.request ∧ t.port.response = s.port.response ∧
      t.port.collided = s.port.collided ∧ t.port.cursor = s.port.cursor ∧
      (c ≠ .hostCheckExpiry → t.slots.hostCheck = s.slots.hostCheck) ∧
      ((∀ l h, c ≠ .releaseInPinChange l h) → (∀ l, c ≠ .qualificationExpiry l) → (∀ z, c ≠ .releaseEdge z) →
        t.zl = s.zl)) ∧
    (s.power ≠ .on → (∀ x h, c ≠ .powerOn x h) → (∀ x h, c ≠ .resetPin x h) → c ≠ .powerLoss →
      (∀ l h, c ≠ .releaseInPinChange l h) → t = s)
end

