-- ==== Sys2Proof/Laws/Bits.lean ====
section
/-! SUPPORT. Laws/Bits.lean: numbers and bits, stuffing and its removal (R197), the check computation over a string in two
parts (R200), sequence numbers (R30). -/

namespace Sys2Proof.Machine

/-! ### Numbers as bits (R196) -/

/-- The number that a string of bits spells, after a number already read. -/
theorem foldl_bits (bits : List Bool) (acc : Nat) :
    bits.foldl (fun a b => 2 * a + b.toNat) acc = acc * 2 ^ bits.length + natOf bits := by
  induction bits generalizing acc with
  | nil => simp [natOf]
  | cons b bits ih =>
    have h0 := ih (2 * 0 + b.toNat)
    simp only [natOf, List.foldl_cons, List.length_cons] at *
    rw [ih, h0, Nat.pow_succ]
    ring

/-- The first bit is the most significant. -/
theorem natOf_cons (b : Bool) (bits : List Bool) : natOf (b :: bits) = b.toNat * 2 ^ bits.length + natOf bits := by
  rw [natOf, List.foldl_cons, foldl_bits]
  simp

@[simp] theorem bitsOf_length (w n : Nat) : (bitsOf w n).length = w := by simp [bitsOf]

/-- The bits of a number, from the most significant on. -/
theorem bitsOf_succ (w n : Nat) : bitsOf (w + 1) n = n.testBit w :: bitsOf w n := by
  simp only [bitsOf, List.range_succ_eq_map, List.map_cons, List.map_map]
  congr 1
  apply List.map_congr_left
  intro i _
  simp only [Function.comp]
  congr 1
  omega

/-- The bits of a number spell it, as far as the width goes. -/
theorem natOf_bitsOf (w n : Nat) : natOf (bitsOf w n) = n % 2 ^ w := by
  induction w with
  | zero => simp [bitsOf, natOf, Nat.mod_one]
  | succ w ih =>
    rw [bitsOf_succ, natOf_cons, ih, bitsOf_length, Nat.mod_pow_succ, Nat.testBit_eq_decide_div_mod_eq]
    have := Nat.mod_lt (n / 2 ^ w) (show 0 < 2 by omega)
    rcases (show n / 2 ^ w % 2 = 0 ∨ n / 2 ^ w % 2 = 1 by omega) with h | h <;> (simp [h]; try ring)

/-! ### Stuffing (R197) -/

/-- A receiver takes the stuff bits out again, whatever run the string goes on from. -/
theorem unstuffAfter_stuffAfter (bits : List Bool) (last : Bool) (run : Nat) (h : run < 5) :
    unstuffAfter last run (stuffAfter last run bits) = bits := by
  induction bits generalizing last run with
  | nil => rfl
  | cons b bits ih =>
    have hrun : run ≠ 5 := by omega
    simp only [stuffAfter]
    by_cases h5 : (if b = last then run + 1 else 1) = 5
    · rw [if_pos h5]
      simp only [unstuffAfter, if_neg hrun, h5, if_true]
      rw [ih (!b) 1 (by omega)]
    · rw [if_neg h5]
      simp only [unstuffAfter, if_neg hrun]
      rw [ih b _ (by
        by_cases hb : b = last
        · rw [if_pos hb] at h5 ⊢
          omega
        · rw [if_neg hb]
          omega)]

/-- R197: what remains after the removal of the stuff bits is the content. -/
theorem unstuff_stuff (bits : List Bool) : unstuff (stuff bits) = bits :=
  unstuffAfter_stuffAfter bits true 0 (by omega)

/-! ### Check computation (R200) -/

/-- The check value of a string in two parts goes on from the register that the first part leaves. -/
theorem checkValue_append (first second : List Bool) :
    checkValue (first ++ second) = second.foldl checkStep (checkValue first) := by
  simp [checkValue]

/-- One input bit, from the same register, gives different registers for different bits. -/
theorem checkStep_not (reg : Half) (b : Bool) : checkStep reg (!b) = checkStep reg b ^^^ 0x1253#16 := by
  simp only [checkStep]
  cases b <;> cases reg.msb <;> simp

/-! ### Sequence numbers (R30) -/

/-- Exactly one of the four relations of R30 holds between two sequence numbers. -/
theorem seq_relation (a b : Seq) : a = b ∨ later a b = true ∨ earlier a b = true ∨ opposite a b = true := by
  by_cases h : a = b
  · exact .inl h
  · refine .inr ?_
    have : (a - b).toNat ≠ 0 := fun h0 => h (by
      have : a - b = 0#16 := BitVec.eq_of_toNat_eq h0
      bv_omega)
    simp only [later, earlier, opposite, Bool.and_eq_true, decide_eq_true_eq]
    omega

end Sys2Proof.Machine
end

