-- ==== Sys2Proof/Laws/State.lean ====
section
/-! SUPPORT. Laws/State.lean: what the small updates of the state leave alone, field by field, for simp. -/

namespace Sys2Proof.Machine

variable (s : State) (e : Event) (n : Counter) (t : Tag) (x : Slot) (k : EntryKind) (v : EventKind) (c : Cause)
  (q : Option Seq)

/-! ### Appending an event (R189) -/

@[simp] theorem State.emit_power : (s.emit e).power = s.power := rfl
@[simp] theorem State.emit_cfg : (s.emit e).cfg = s.cfg := rfl
@[simp] theorem State.emit_line : (s.emit e).line = s.line := rfl
@[simp] theorem State.emit_order : (s.emit e).order = s.order := rfl
@[simp] theorem State.emit_table : (s.emit e).table = s.table := rfl
@[simp] theorem State.emit_roster : (s.emit e).roster = s.roster := rfl
@[simp] theorem State.emit_mem : (s.emit e).mem = s.mem := rfl
@[simp] theorem State.emit_pres : (s.emit e).pres = s.pres := rfl
@[simp] theorem State.emit_cu : (s.emit e).cu = s.cu := rfl
@[simp] theorem State.emit_slots : (s.emit e).slots = s.slots := rfl
@[simp] theorem State.emit_zl : (s.emit e).zl = s.zl := rfl
@[simp] theorem State.emit_freeCount : (s.emit e).freeCount = s.freeCount := rfl
@[simp] theorem State.emit_pending : (s.emit e).pending = s.pending := rfl
@[simp] theorem State.emit_port : (s.emit e).port = s.port.append s.cfg.idleTimeout e := rfl

/-! ### Counting (R186) -/

@[simp] theorem State.bump_power : (s.bump n).power = s.power := rfl
@[simp] theorem State.bump_cfg : (s.bump n).cfg = s.cfg := rfl
@[simp] theorem State.bump_line : (s.bump n).line = s.line := rfl
@[simp] theorem State.bump_order : (s.bump n).order = s.order := rfl
@[simp] theorem State.bump_table : (s.bump n).table = s.table := rfl
@[simp] theorem State.bump_roster : (s.bump n).roster = s.roster := rfl
@[simp] theorem State.bump_mem : (s.bump n).mem = s.mem := rfl
@[simp] theorem State.bump_pres : (s.bump n).pres = s.pres := rfl
@[simp] theorem State.bump_cu : (s.bump n).cu = s.cu := rfl
@[simp] theorem State.bump_slots : (s.bump n).slots = s.slots := rfl
@[simp] theorem State.bump_zl : (s.bump n).zl = s.zl := rfl
@[simp] theorem State.bump_freeCount : (s.bump n).freeCount = s.freeCount := rfl
@[simp] theorem State.bump_pending : (s.bump n).pending = s.pending := rfl
@[simp] theorem State.bump_port_request : (s.bump n).port.request = s.port.request := rfl
@[simp] theorem State.bump_port_response : (s.bump n).port.response = s.port.response := rfl
@[simp] theorem State.bump_port_collided : (s.bump n).port.collided = s.port.collided := rfl
@[simp] theorem State.bump_port_events : (s.bump n).port.events = s.port.events := rfl
@[simp] theorem State.bump_port_idleTimer : (s.bump n).port.idleTimer = s.port.idleTimer := rfl
@[simp] theorem State.bump_port_idleFlag : (s.bump n).port.idleFlag = s.port.idleFlag := rfl
@[simp] theorem State.bump_port_cursor : (s.bump n).port.cursor = s.port.cursor := rfl
@[simp] theorem State.bump_port_spi : (s.bump n).port.spi = s.port.spi := rfl
@[simp] theorem State.bump_port_sdo : (s.bump n).port.sdo = s.port.sdo := rfl

/-! ### Changing a slot (R138) -/

@[simp] theorem State.setSlot_power : (s.setSlot t x).power = s.power := rfl
@[simp] theorem State.setSlot_cfg : (s.setSlot t x).cfg = s.cfg := rfl
@[simp] theorem State.setSlot_line : (s.setSlot t x).line = s.line := rfl
@[simp] theorem State.setSlot_order : (s.setSlot t x).order = s.order := rfl
@[simp] theorem State.setSlot_table : (s.setSlot t x).table = s.table := rfl
@[simp] theorem State.setSlot_roster : (s.setSlot t x).roster = s.roster := rfl
@[simp] theorem State.setSlot_mem : (s.setSlot t x).mem = s.mem := rfl
@[simp] theorem State.setSlot_pres : (s.setSlot t x).pres = s.pres := rfl
@[simp] theorem State.setSlot_cu : (s.setSlot t x).cu = s.cu := rfl
@[simp] theorem State.setSlot_zl : (s.setSlot t x).zl = s.zl := rfl
@[simp] theorem State.setSlot_port : (s.setSlot t x).port = s.port := rfl
@[simp] theorem State.setSlot_freeCount : (s.setSlot t x).freeCount = s.freeCount := rfl
@[simp] theorem State.setSlot_pending : (s.setSlot t x).pending = s.pending := rfl
@[simp] theorem State.setSlot_queue : (s.setSlot t x).slots.queue = s.slots.queue := rfl
@[simp] theorem State.setSlot_nextId : (s.setSlot t x).slots.nextId = s.slots.nextId := rfl
@[simp] theorem State.setSlot_hostCheck : (s.setSlot t x).slots.hostCheck = s.slots.hostCheck := rfl
@[simp] theorem State.setSlot_slotsOf : (s.setSlot t x).slots.slots = s.slots.slots.set t x := rfl

/-! ### Appending to the send queue (R140) -/

@[simp] theorem State.push_power : (s.push k t).power = s.power := rfl
@[simp] theorem State.push_cfg : (s.push k t).cfg = s.cfg := rfl
@[simp] theorem State.push_line : (s.push k t).line = s.line := rfl
@[simp] theorem State.push_order : (s.push k t).order = s.order := rfl
@[simp] theorem State.push_table : (s.push k t).table = s.table := rfl
@[simp] theorem State.push_roster : (s.push k t).roster = s.roster := rfl
@[simp] theorem State.push_mem : (s.push k t).mem = s.mem := rfl
@[simp] theorem State.push_pres : (s.push k t).pres = s.pres := rfl
@[simp] theorem State.push_cu : (s.push k t).cu = s.cu := rfl
@[simp] theorem State.push_zl : (s.push k t).zl = s.zl := rfl
@[simp] theorem State.push_port : (s.push k t).port = s.port := rfl
@[simp] theorem State.push_freeCount : (s.push k t).freeCount = s.freeCount := rfl
@[simp] theorem State.push_pending : (s.push k t).pending = s.pending := rfl
@[simp] theorem State.push_slotsOf : (s.push k t).slots.slots = s.slots.slots := rfl
@[simp] theorem State.push_hostCheck : (s.push k t).slots.hostCheck = s.slots.hostCheck := rfl

/-! ### Removing a slot's entry (R140) -/

@[simp] theorem State.dropEntryOf_power : (s.dropEntryOf t).power = s.power := rfl
@[simp] theorem State.dropEntryOf_cfg : (s.dropEntryOf t).cfg = s.cfg := rfl
@[simp] theorem State.dropEntryOf_line : (s.dropEntryOf t).line = s.line := rfl
@[simp] theorem State.dropEntryOf_order : (s.dropEntryOf t).order = s.order := rfl
@[simp] theorem State.dropEntryOf_table : (s.dropEntryOf t).table = s.table := rfl
@[simp] theorem State.dropEntryOf_roster : (s.dropEntryOf t).roster = s.roster := rfl
@[simp] theorem State.dropEntryOf_mem : (s.dropEntryOf t).mem = s.mem := rfl
@[simp] theorem State.dropEntryOf_pres : (s.dropEntryOf t).pres = s.pres := rfl
@[simp] theorem State.dropEntryOf_cu : (s.dropEntryOf t).cu = s.cu := rfl
@[simp] theorem State.dropEntryOf_zl : (s.dropEntryOf t).zl = s.zl := rfl
@[simp] theorem State.dropEntryOf_port : (s.dropEntryOf t).port = s.port := rfl
@[simp] theorem State.dropEntryOf_freeCount : (s.dropEntryOf t).freeCount = s.freeCount := rfl
@[simp] theorem State.dropEntryOf_pending : (s.dropEntryOf t).pending = s.pending := rfl
@[simp] theorem State.dropEntryOf_slotsOf : (s.dropEntryOf t).slots.slots = s.slots.slots := rfl
@[simp] theorem State.dropEntryOf_hostCheck : (s.dropEntryOf t).slots.hostCheck = s.slots.hostCheck := rfl

/-! ### Turning a WITHDRAW into a RELEASE (R140) -/

@[simp] theorem State.toRelease_power : (s.toRelease t).power = s.power := rfl
@[simp] theorem State.toRelease_cfg : (s.toRelease t).cfg = s.cfg := rfl
@[simp] theorem State.toRelease_line : (s.toRelease t).line = s.line := rfl
@[simp] theorem State.toRelease_order : (s.toRelease t).order = s.order := rfl
@[simp] theorem State.toRelease_table : (s.toRelease t).table = s.table := rfl
@[simp] theorem State.toRelease_roster : (s.toRelease t).roster = s.roster := rfl
@[simp] theorem State.toRelease_mem : (s.toRelease t).mem = s.mem := rfl
@[simp] theorem State.toRelease_pres : (s.toRelease t).pres = s.pres := rfl
@[simp] theorem State.toRelease_cu : (s.toRelease t).cu = s.cu := rfl
@[simp] theorem State.toRelease_zl : (s.toRelease t).zl = s.zl := rfl
@[simp] theorem State.toRelease_port : (s.toRelease t).port = s.port := rfl
@[simp] theorem State.toRelease_freeCount : (s.toRelease t).freeCount = s.freeCount := rfl
@[simp] theorem State.toRelease_pending : (s.toRelease t).pending = s.pending := rfl
@[simp] theorem State.toRelease_slotsOf : (s.toRelease t).slots.slots = s.slots.slots := rfl
@[simp] theorem State.toRelease_hostCheck : (s.toRelease t).slots.hostCheck = s.slots.hostCheck := rfl

/-! ### Leaving a slot FREE (R141) -/

@[simp] theorem State.freeWith_power : (s.freeWith t v c q).power = s.power := rfl
@[simp] theorem State.freeWith_cfg : (s.freeWith t v c q).cfg = s.cfg := rfl
@[simp] theorem State.freeWith_line : (s.freeWith t v c q).line = s.line := rfl
@[simp] theorem State.freeWith_order : (s.freeWith t v c q).order = s.order := rfl
@[simp] theorem State.freeWith_table : (s.freeWith t v c q).table = s.table := rfl
@[simp] theorem State.freeWith_roster : (s.freeWith t v c q).roster = s.roster := rfl
@[simp] theorem State.freeWith_mem : (s.freeWith t v c q).mem = s.mem := rfl
@[simp] theorem State.freeWith_pres : (s.freeWith t v c q).pres = s.pres := rfl
@[simp] theorem State.freeWith_cu : (s.freeWith t v c q).cu = s.cu := rfl
@[simp] theorem State.freeWith_zl : (s.freeWith t v c q).zl = s.zl := rfl
@[simp] theorem State.freeWith_freeCount : (s.freeWith t v c q).freeCount = s.freeCount := rfl
@[simp] theorem State.freeWith_pending : (s.freeWith t v c q).pending = s.pending := rfl
@[simp] theorem State.freeWith_slots : (s.freeWith t v c q).slots = s.slots.setSlot t Slot.empty := rfl

/-! ### The port under an append -/

variable (p : Port) (timeout : Nat)

/-- R189: an append touches the records and the idle timer only. -/
theorem Port.append_eq :
    p.append timeout e =
      { p with events := (p.append timeout e).events, idleTimer := (p.append timeout e).idleTimer } := by
  simp only [Port.append]
  split
  · rfl
  · split <;> rfl

@[simp] theorem Port.append_request : (p.append timeout e).request = p.request := by
  rw [Port.append_eq]
@[simp] theorem Port.append_response : (p.append timeout e).response = p.response := by
  rw [Port.append_eq]
@[simp] theorem Port.append_collided : (p.append timeout e).collided = p.collided := by
  rw [Port.append_eq]
@[simp] theorem Port.append_idleFlag : (p.append timeout e).idleFlag = p.idleFlag := by
  rw [Port.append_eq]
@[simp] theorem Port.append_cursor : (p.append timeout e).cursor = p.cursor := by
  rw [Port.append_eq]
@[simp] theorem Port.append_counters : (p.append timeout e).counters = p.counters := by
  rw [Port.append_eq]
@[simp] theorem Port.append_spi : (p.append timeout e).spi = p.spi := by
  rw [Port.append_eq]
@[simp] theorem Port.append_sdo : (p.append timeout e).sdo = p.sdo := by
  rw [Port.append_eq]

/-- R186: the counter that counts goes up; the others stay. -/
theorem State.bump_counters (k : Fin 28) :
    (s.bump n).port.counters[k] = if k = n.index then satInc s.port.counters[k] else s.port.counters[k] := by
  simp only [State.bump, Fin.getElem_fin, Vector.getElem_set]
  split <;> rename_i h
  · have : k = n.index := Fin.ext h.symm
    simp [this]
  · have : k ≠ n.index := fun e => h (by rw [e])
    simp [this]

/-- The slot that is changed reads as written; the others as before. -/
theorem State.setSlot_slot (t' : Tag) : (s.setSlot t x).slot t' = if t' = t then x else s.slot t' := by
  simp only [State.slot, State.setSlot, SlotUnit.setSlot, Fin.getElem_fin, Vector.getElem_set]
  split <;> rename_i h
  · simp [Fin.ext h.symm]
  · have : t' ≠ t := fun e => h (by rw [e])
    simp [this]

end Sys2Proof.Machine
end

