-- ==== Sys2Proof/Laws/Frames.lean ====
section
/-! SUPPORT. Laws/Frames.lean: what the operations of the slot unit, and those that follow the group, leave alone. The part
of a state that stays is gathered in one record, so that "it stays" is one equation and a field of it is one congrArg. -/

namespace Sys2Proof.Machine

/-! ### The slot unit -/

/-- What no operation of the slot unit touches: everything but slots, send queue, events with their timer, counters. -/
structure SlotRest where
  power     : Power
  cfg       : Cfg
  line      : LineIf
  order     : Order
  table     : Table
  roster    : Roster
  mem       : Membership
  pres      : Presence
  cu        : CatchUp
  zl        : ZoneLines
  freeCount : Nat
  pending   : List Instr
  hostCheck : Watch
  request   : Option Request
  response  : Option (List Byte)
  collided  : Bool
  idleFlag  : Bool
  cursor    : Cursor
  spi       : Spi
  sdo       : List Byte

/-- The part of a state that no operation of the slot unit touches. -/
def State.slotRest (s : State) : SlotRest where
  power := s.power
  cfg := s.cfg
  line := s.line
  order := s.order
  table := s.table
  roster := s.roster
  mem := s.mem
  pres := s.pres
  cu := s.cu
  zl := s.zl
  freeCount := s.freeCount
  pending := s.pending
  hostCheck := s.slots.hostCheck
  request := s.port.request
  response := s.port.response
  collided := s.port.collided
  idleFlag := s.port.idleFlag
  cursor := s.port.cursor
  spi := s.port.spi
  sdo := s.port.sdo

section SlotUnit

variable (s : State) (t : Tag)

@[simp] theorem emit_slotRest (e : Event) : (s.emit e).slotRest = s.slotRest := by simp [State.slotRest]

@[simp] theorem bump_slotRest (n : Counter) : (s.bump n).slotRest = s.slotRest := by simp [State.slotRest]

@[simp] theorem setSlot_slotRest (x : Slot) : (s.setSlot t x).slotRest = s.slotRest := rfl

@[simp] theorem push_slotRest (k : EntryKind) : (s.push k t).slotRest = s.slotRest := rfl

@[simp] theorem dropEntryOf_slotRest : (s.dropEntryOf t).slotRest = s.slotRest := rfl

@[simp] theorem toRelease_slotRest : (s.toRelease t).slotRest = s.slotRest := rfl

@[simp] theorem freeWith_slotRest (k : EventKind) (c : Cause) (q : Option Seq) :
    (s.freeWith t k c q).slotRest = s.slotRest := by simp [State.freeWith]

@[simp] theorem freeSlot_slotRest (c : ReleaseCause) : (s.freeSlot t c).1.slotRest = s.slotRest := by
  simp only [State.freeSlot]
  repeat' split
  all_goals simp

@[simp] theorem cancelSlot_slotRest : (s.cancelSlot t).1.slotRest = s.slotRest := by
  simp only [State.cancelSlot]
  repeat' split
  all_goals simp

/-- A fold of steps that each leave the rest alone leaves it alone. -/
theorem foldl_slotRest {α : Type} (f : State → α → State) (h : ∀ s a, (f s a).slotRest = s.slotRest) (l : List α)
    (s : State) : (l.foldl f s).slotRest = s.slotRest := by
  induction l generalizing s with
  | nil => rfl
  | cons a l ih => rw [List.foldl_cons, ih, h]

@[simp] theorem giveUp_slotRest (c : ReleaseCause) : (State.giveUp c s t).slotRest = s.slotRest := by
  simp [State.giveUp]

@[simp] theorem surrender_slotRest : s.surrender.slotRest = s.slotRest :=
  foldl_slotRest _ (fun s t => giveUp_slotRest s t .surrender) _ _

@[simp] theorem releaseZone_slotRest (z : Nat) : (s.releaseZone z).slotRest = s.slotRest := by
  simp only [State.releaseZone]
  repeat' split
  all_goals simp

@[simp] theorem claimUnsent_slotRest : (s.claimUnsent t).slotRest = s.slotRest := by
  simp only [State.claimUnsent]
  repeat' split
  all_goals simp

@[simp] theorem withdrawUnsent_slotRest : (s.withdrawUnsent t).slotRest = s.slotRest := by
  simp only [State.withdrawUnsent]
  repeat' split
  all_goals simp

@[simp] theorem entryUnsent_slotRest (id : Nat) : (s.entryUnsent id).slotRest = s.slotRest := by
  simp only [State.entryUnsent]
  repeat' split
  all_goals first | rfl | simp

@[simp] theorem ownClaimTaken_slotRest (out : ClaimOutcome) (granted : Bool) (q : Seq) :
    (s.ownClaimTaken t out granted q).slotRest = s.slotRest := by
  simp only [State.ownClaimTaken]
  repeat' split
  all_goals simp

@[simp] theorem ownReleaseTaken_slotRest (q : Seq) : (s.ownReleaseTaken t q).slotRest = s.slotRest := by
  simp [State.ownReleaseTaken]

@[simp] theorem ownWithdrawTaken_slotRest (out : TagOutcome) (granted : Option Seq) (q : Seq) :
    (s.ownWithdrawTaken t out granted q).slotRest = s.slotRest := by
  simp only [State.ownWithdrawTaken]
  repeat' split
  all_goals simp

@[simp] theorem ownGrant_slotRest (q : Seq) : (s.ownGrant t q).slotRest = s.slotRest := by
  simp only [State.ownGrant]
  repeat' split
  all_goals simp

@[simp] theorem ownRemoved_slotRest (q : Seq) : (s.ownRemoved t q).slotRest = s.slotRest := by
  simp only [State.ownRemoved]
  repeat' split
  all_goals simp

@[simp] theorem settleOwn_slotRest (f : Frame) (rep : Report) (entry : Option Tag) :
    (s.settleOwn f rep entry).slotRest = s.slotRest := by
  simp only [State.settleOwn]
  repeat' split
  all_goals simp

@[simp] theorem settleRemoved_slotRest (f : Frame) (own : Bool) (r : Record) :
    (State.settleRemoved f own s r).slotRest = s.slotRest := by
  simp only [State.settleRemoved]
  repeat' split
  all_goals simp

@[simp] theorem settleGrant_slotRest (f : Frame) (own : Bool) (g : StationNo × Tag) :
    (State.settleGrant f own s g).slotRest = s.slotRest := by
  simp only [State.settleGrant]
  repeat' split
  all_goals simp

@[simp] theorem settleReport_slotRest (f : Frame) (own : Bool) (entry : Option Tag) (rep : Report) :
    (s.settleReport f own entry rep).slotRest = s.slotRest := by
  unfold State.settleReport
  rw [foldl_slotRest _ (fun s g => settleGrant_slotRest s f own g),
    foldl_slotRest _ (fun s r => settleRemoved_slotRest s f own r)]
  split <;> simp

@[simp] theorem revalidateSlot_slotRest (base : Seq) : (State.revalidateSlot base s t).slotRest = s.slotRest := by
  simp only [State.revalidateSlot]
  repeat' split
  all_goals simp

@[simp] theorem revalidate_slotRest (base : Seq) : (s.revalidate base).slotRest = s.slotRest :=
  foldl_slotRest _ (fun s t => revalidateSlot_slotRest s t base) _ _

@[simp] theorem clearEvent_slotRest (k : EventKind) (c : Cause) (q : Option Seq) :
    (State.clearEvent k c q s t).slotRest = s.slotRest := by
  simp only [State.clearEvent]
  repeat' split
  all_goals simp

@[simp] theorem clearSlots_slotRest (k : EventKind) (c : Cause) (q : Option Seq) :
    (s.clearSlots k c q).slotRest = s.slotRest := by
  have h : (tags.foldl (State.clearEvent k c q) s).slotRest = s.slotRest :=
    foldl_slotRest _ (fun s t => clearEvent_slotRest s t k c q) _ _
  unfold State.clearSlots
  generalize tags.foldl (State.clearEvent k c q) s = told at h ⊢
  exact h

end SlotUnit

/-! ### The group -/

/-- What no operation that follows the group touches: supply, configuration, straps and own digest, lock, zone lines, the
host's side of the port, host-check timer. -/
structure GroupRest where
  power      : Power
  cfg        : Cfg
  line       : LineIf
  number     : Option StationNo
  rate       : Rate
  strapFault : Bool
  ownDigest  : Half
  locked     : Bool
  zl         : ZoneLines
  freeCount  : Nat
  pending    : List Instr
  hostCheck  : Watch
  request    : Option Request
  response   : Option (List Byte)
  collided   : Bool
  idleFlag   : Bool
  cursor     : Cursor
  spi        : Spi
  sdo        : List Byte

/-- The part of a state that no operation that follows the group touches. -/
def State.groupRest (s : State) : GroupRest where
  power := s.power
  cfg := s.cfg
  line := s.line
  number := s.mem.number
  rate := s.mem.rate
  strapFault := s.mem.strapFault
  ownDigest := s.mem.ownDigest
  locked := s.mem.locked
  zl := s.zl
  freeCount := s.freeCount
  pending := s.pending
  hostCheck := s.slots.hostCheck
  request := s.port.request
  response := s.port.response
  collided := s.port.collided
  idleFlag := s.port.idleFlag
  cursor := s.port.cursor
  spi := s.port.spi
  sdo := s.port.sdo

/-- What the slot unit leaves alone takes in what the group leaves alone. -/
theorem groupRest_of_slotRest {s t : State} (h : t.slotRest = s.slotRest) : t.groupRest = s.groupRest := by
  simp only [State.slotRest, SlotRest.mk.injEq] at h
  simp only [State.groupRest, h]

section Group

variable (s : State)

@[simp] theorem emit_groupRest (e : Event) : (s.emit e).groupRest = s.groupRest :=
  groupRest_of_slotRest (emit_slotRest s e)

@[simp] theorem bump_groupRest (n : Counter) : (s.bump n).groupRest = s.groupRest :=
  groupRest_of_slotRest (bump_slotRest s n)

@[simp] theorem clearSlots_groupRest (k : EventKind) (c : Cause) (q : Option Seq) :
    (s.clearSlots k c q).groupRest = s.groupRest := groupRest_of_slotRest (clearSlots_slotRest s k c q)

@[simp] theorem settleReport_groupRest (f : Frame) (own : Bool) (entry : Option Tag) (rep : Report) :
    (s.settleReport f own entry rep).groupRest = s.groupRest :=
  groupRest_of_slotRest (settleReport_slotRest s f own entry rep)

@[simp] theorem revalidate_groupRest (base : Seq) : (s.revalidate base).groupRest = s.groupRest :=
  groupRest_of_slotRest (revalidate_slotRest s base)

@[simp] theorem entryUnsent_groupRest (id : Nat) : (s.entryUnsent id).groupRest = s.groupRest :=
  groupRest_of_slotRest (entryUnsent_slotRest s id)

@[simp] theorem enterListening_groupRest (c : Cause) (q : Option Seq) :
    (s.enterListening c q).groupRest = s.groupRest := emit_groupRest _ _

@[simp] theorem enterJoining_groupRest (join : Bool) (c : Cause) (q : Option Seq) :
    (s.enterJoining join c q).groupRest = s.groupRest := by
  simp only [State.enterJoining]
  split
  · rfl
  · exact emit_groupRest _ _

@[simp] theorem enterMember_groupRest (c : Cause) (q : Option Seq) : (s.enterMember c q).groupRest = s.groupRest :=
  emit_groupRest _ _

@[simp] theorem enterOut_groupRest (st : StationState) (c : Cause) (q : Option Seq) :
    (s.enterOut st c q).groupRest = s.groupRest := emit_groupRest _ _

@[simp] theorem enterBehind_groupRest : s.enterBehind.groupRest = s.groupRest := by
  unfold State.enterBehind
  split <;> rfl

@[simp] theorem record_groupRest (q : Seq) : (s.record q).groupRest = s.groupRest := by
  unfold State.record
  split <;> rfl

@[simp] theorem heardFrom_groupRest (n : StationNo) : (s.heardFrom n).groupRest = s.groupRest := by
  unfold State.heardFrom
  split <;> rfl

@[simp] theorem keepBack_groupRest (own : Bool) (f : Frame) (first : Bool) :
    (s.keepBack own f first).groupRest = s.groupRest := rfl

@[simp] theorem failAttempt_groupRest (c : Cause) : (s.failAttempt c).groupRest = s.groupRest := by
  have h (e : Event) : ((s.emit e).bump .attemptsFailed).groupRest = s.groupRest := by simp
  simp only [State.failAttempt]
  split
  · exact h _
  · simp

@[simp] theorem beginServe_groupRest (n : StationNo) : (s.beginServe n).groupRest = s.groupRest := rfl

@[simp] theorem startNextServe_groupRest : s.startNextServe.groupRest = s.groupRest := by
  unfold State.startNextServe
  split <;> rfl

@[simp] theorem serveRequest_groupRest (n : StationNo) : (s.serveRequest n).groupRest = s.groupRest := by
  unfold State.serveRequest
  split
  · simp
  · split
    · simp
    · split
      · simp
      · exact startNextServe_groupRest _

@[simp] theorem designate_groupRest (n : StationNo) : (s.designate n).groupRest = s.groupRest := by
  unfold State.designate
  split
  · split <;> simp
  · rfl

@[simp] theorem partSent_groupRest : s.partSent.groupRest = s.groupRest := by
  unfold State.partSent
  split
  · rfl
  · split
    · rfl
    · exact (startNextServe_groupRest _).trans (bump_groupRest _ _)

@[simp] theorem removePeer_groupRest (x : StationNo) : (s.removePeer x).groupRest = s.groupRest := rfl

@[simp] theorem admitPeer_groupRest (x : StationNo) (q : Seq) : (s.admitPeer x q).groupRest = s.groupRest := rfl

@[simp] theorem applyJoin_groupRest (x : StationNo) (d : Half) (own : Bool) (q : Seq) :
    (s.applyJoin x d own q).1.groupRest = s.groupRest := by
  simp only [State.applyJoin]
  repeat' split
  all_goals simp

@[simp] theorem applyLeave_groupRest (x : StationNo) (own : Bool) (q : Seq) :
    (s.applyLeave x own q).1.groupRest = s.groupRest := by
  simp only [State.applyLeave]
  repeat' split
  all_goals simp

@[simp] theorem applyEvict_groupRest (y : StationNo) (target : Byte) (q : Seq) :
    (s.applyEvict y target q).1.groupRest = s.groupRest := by
  simp only [State.applyEvict]
  repeat' split
  all_goals simp

@[simp] theorem applyKind_groupRest (f : Frame) (own : Bool) : (s.applyKind f own).1.groupRest = s.groupRest := by
  unfold State.applyKind
  split <;> simp

@[simp] theorem membershipStep_groupRest (f : Frame) (own : Bool) :
    (s.membershipStep f own).1.groupRest = s.groupRest := by
  simp only [State.membershipStep]
  split
  · exact (emit_groupRest _ _).trans (applyKind_groupRest _ f own)
  · exact applyKind_groupRest _ f own

@[simp] theorem makeMove_groupRest (m : Move) (q : Seq) : (s.makeMove m q).groupRest = s.groupRest := by
  cases m with
  | stay => rfl
  | becomeMember => exact enterMember_groupRest _ _ _
  | loseMembership c => exact enterJoining_groupRest _ _ _ _
  | leaveGroup st c => exact enterOut_groupRest _ _ _ _
  | dissolve => exact enterListening_groupRest _ _ _

@[simp] theorem settleSlots_groupRest (m : Move) (f : Frame) (own : Bool) (entry : Option Tag) (rep : Report) :
    (s.settleSlots m f own entry rep).groupRest = s.groupRest := by
  unfold State.settleSlots
  split <;> simp

@[simp] theorem compareFingerprint_groupRest (f : Frame) (own : Bool) (carried kept : Half) :
    (s.compareFingerprint f own carried kept).groupRest = s.groupRest := by
  simp only [State.compareFingerprint]
  repeat' split
  all_goals simp

@[simp] theorem lastStep_groupRest (f : Frame) (own : Bool) (kept : Half) :
    (s.lastStep f own kept).groupRest = s.groupRest := by
  unfold State.lastStep
  split <;> simp

/-- R45: the application of a frame, whole. -/
@[simp] theorem applyFrame_groupRest (live own : Bool) (entry : Option Tag) (f : Frame) :
    (s.applyFrame live own entry f).groupRest = s.groupRest := by
  simp only [State.applyFrame]
  repeat' split
  all_goals
    simp only [lastStep_groupRest, settleSlots_groupRest]
    exact (makeMove_groupRest _ _ _).trans (membershipStep_groupRest _ f own)

@[simp] theorem applyHeld_groupRest (h : Held) : (s.applyHeld h).groupRest = s.groupRest := by
  unfold State.applyHeld
  split <;> simp

/-- A fold of steps that each leave the rest alone leaves it alone. -/
theorem foldl_groupRest {α : Type} (f : State → α → State) (h : ∀ s a, (f s a).groupRest = s.groupRest) (l : List α)
    (s : State) : (l.foldl f s).groupRest = s.groupRest := by
  induction l generalizing s with
  | nil => rfl
  | cons a l ih => rw [List.foldl_cons, ih, h]

@[simp] theorem closeCatchUp_groupRest : s.closeCatchUp.groupRest = s.groupRest := by
  simp only [State.closeCatchUp]
  split <;> rfl

@[simp] theorem settleInstall_groupRest (base : Seq) : (s.settleInstall base).groupRest = s.groupRest := by
  simp only [State.settleInstall]
  split
  · rfl
  · split
    · rfl
    · exact (clearSlots_groupRest _ _ _ _).trans (enterJoining_groupRest _ _ _ _)
  · split
    · rfl
    · simp
  all_goals rfl

/-- R131, R132: the install, whole. -/
@[simp] theorem install_groupRest (sn : Snapshot) (t : Table) : (s.install sn t).groupRest = s.groupRest := by
  have h : ((heldAfter s.cu.holdBack sn.base).foldl State.applyHeld (s.replaceReplicated sn t)).closeCatchUp.groupRest =
      s.groupRest :=
    (closeCatchUp_groupRest _).trans (foldl_groupRest _ applyHeld_groupRest _ _)
  simp only [State.install, bump_groupRest]
  repeat' split
  all_goals simp [h]

@[simp] theorem attemptInstall_groupRest (sn : Snapshot) : (s.attemptInstall sn).groupRest = s.groupRest := by
  unfold State.attemptInstall
  repeat' split
  all_goals simp

@[simp] theorem storeSnapshot_groupRest (sn : Snapshot) : (s.storeSnapshot sn).groupRest = s.groupRest := by
  simp only [State.storeSnapshot]
  split
  · exact attemptInstall_groupRest _ _
  · rfl

/-- R126, R127: a SNAP heard, the install that it may complete included. -/
@[simp] theorem hearSnap_groupRest (f : Frame) : (s.hearSnap f).groupRest = s.groupRest := by
  simp only [State.hearSnap, State.snapHeader, State.snapRecord]
  repeat' split
  all_goals first | rfl | simp

@[simp] theorem restartListen_groupRest : s.restartListen.groupRest = s.groupRest := by
  unfold State.restartListen
  split <;> rfl

@[simp] theorem castVote_groupRest (v : Vote) : (s.castVote v).groupRest = s.groupRest := by
  unfold State.castVote
  split
  · rfl
  · exact bump_groupRest _ _
  all_goals rfl

@[simp] theorem adopt_groupRest (f : Frame) (d : Half) : (s.adopt f d).groupRest = s.groupRest := by
  have h : (s.adoptGroup f.sender d f.seq).groupRest = s.groupRest := rfl
  simp only [State.adopt]
  repeat' split
  all_goals simp [h]

@[simp] theorem taken_groupRest (f : Frame) (v : Vote) : (s.taken f v).groupRest = s.groupRest := by
  simp only [State.taken, State.hearTaken]
  repeat' split
  all_goals simp

@[simp] theorem vetoed_groupRest (v : Vote) : (s.vetoed v).groupRest = s.groupRest := by
  simp only [State.vetoed]
  repeat' split
  all_goals simp

/-- R42: the outcome of another station's frame, whole. -/
@[simp] theorem outcomeHeard_groupRest (r : Received) (v : Vote) (b : Bool) :
    (s.outcomeHeard r v b).groupRest = s.groupRest := by
  simp only [State.outcomeHeard]
  repeat' split
  all_goals simp

@[simp] theorem countOwnVeto_groupRest : s.countOwnVeto.groupRest = s.groupRest := by
  simp only [State.countOwnVeto]
  split
  · exact enterBehind_groupRest _
  · rfl

@[simp] theorem syncreqUnsent_groupRest : s.syncreqUnsent.groupRest = s.groupRest := by
  simp only [State.syncreqUnsent]
  split
  · rfl
  · exact failAttempt_groupRest _ _

/-- R64 to R66: an own attempt that ended VETOED or FAULT. -/
@[simp] theorem ownUnsent_groupRest (a : Attempt) (fault : Bool) : (s.ownUnsent a fault).groupRest = s.groupRest := by
  simp only [State.ownUnsent, State.foundVetoed]
  repeat' split
  all_goals simp

@[simp] theorem ownLost_groupRest (a : Attempt) : (s.ownLost a).groupRest = s.groupRest := by
  simp only [State.ownLost]
  split <;> simp

@[simp] theorem leaveSource_groupRest (src : Source) : (s.leaveSource src).groupRest = s.groupRest := by
  unfold State.leaveSource
  split <;> rfl

@[simp] theorem foundTaken_groupRest (f : Frame) : (s.foundTaken f).groupRest = s.groupRest := by
  unfold State.foundTaken
  split
  · rfl
  · exact enterMember_groupRest _ _ _

@[simp] theorem syncreqTaken_groupRest (f : Frame) : (s.syncreqTaken f).groupRest = s.groupRest := rfl

/-- R65, R66: an own attempt that ended TAKEN. -/
@[simp] theorem ownTaken_groupRest (a : Attempt) : (s.ownTaken a).groupRest = s.groupRest := by
  have h (q : Nat) : ({ (s.bump .framesTaken).leaveSource a.source with
      order := { ((s.bump .framesTaken).leaveSource a.source).order with ownRun := q } } : State).groupRest =
      s.groupRest :=
    (leaveSource_groupRest _ _).trans (bump_groupRest _ _)
  simp only [State.ownTaken]
  repeat' split
  all_goals simp [h]

@[simp] theorem deliverFault_groupRest (x : Option Faulted) : (s.deliverFault x).groupRest = s.groupRest := by
  unfold State.deliverFault
  split <;> simp

end Group

/-! ### Happenings -/

/-- A happening that takes place. -/
@[simp] theorem happening_true (f : State → State) (s : State) : happening true f s = .next (f s) := rfl

/-- A happening that does not take place. -/
@[simp] theorem happening_false (f : State → State) (s : State) : happening false f s = .next s := rfl

/-- Whatever stays under a happening's effect stays under the happening. -/
theorem happening_keeps {α : Type} (p : State → α) {b : Bool} {f : State → State} {s t : State}
    (h : happening b f s = .next t) (keep : p (f s) = p s) : p t = p s := by
  cases b
  · rw [happening_false] at h
    cases h
    rfl
  · rw [happening_true] at h
    cases h
    exact keep

end Sys2Proof.Machine
end

