-- ==== Sys2Proof/Laws/Line.lean ====
section
/-! SUPPORT. Laws/Line.lean: what reading the line does, level by level or at once (R51, R52, R197), and what the
completed and the heard frame hand on (R42, R58, R65). -/

namespace Sys2Proof.Machine

variable (l : LineIf) (first second : List Bool)

/-! ### QUIET again (R52) -/

@[simp] theorem LineIf.toQuiet_view : l.toQuiet.view = .quiet := rfl
@[simp] theorem LineIf.toQuiet_quietBits : l.toQuiet.quietBits = 0 := rfl
@[simp] theorem LineIf.toQuiet_tx : l.toQuiet.tx = .idle := rfl
@[simp] theorem LineIf.toQuiet_rx : l.toQuiet.rx = none := rfl
@[simp] theorem LineIf.toQuiet_awaiting : l.toQuiet.awaiting = .nothing := rfl
@[simp] theorem LineIf.toQuiet_slot : l.toQuiet.slot = [] := rfl
@[simp] theorem LineIf.toQuiet_faulted : l.toQuiet.faulted = none := rfl
@[simp] theorem LineIf.toQuiet_stuck : l.toQuiet.stuck = l.stuck := rfl
@[simp] theorem LineIf.toQuiet_clock : l.toQuiet.clock = l.clock := rfl

theorem LineIf.toQuiet_eq_afterOutcome : l.toQuiet = l.afterOutcome := rfl

/-! ### Levels read (R52) -/

theorem LineIf.frameAfter_of_rx {l : LineIf} {read : List Bool} (h : l.rx = some read) :
    l.frameAfter first = some (read ++ first) := by simp [LineIf.frameAfter, h]

theorem LineIf.reads_rx : (l.reads first).rx = l.frameAfter first := by
  unfold LineIf.reads LineIf.frameAfter
  cases h : l.rx <;> simp [h]

/-- Levels read in two goes fill the frame as they do at once. -/
theorem LineIf.reads_frameAfter : (l.reads first).frameAfter second = l.frameAfter (first ++ second) := by
  rw [LineIf.frameAfter, LineIf.reads_rx]
  unfold LineIf.frameAfter
  cases l.rx <;> simp

/-- Reading levels moves the frame being received and the transmitter only. -/
theorem LineIf.reads_keeps : l.reads first = { l with rx := (l.reads first).rx, tx := (l.reads first).tx } := by
  unfold LineIf.reads
  split <;> rfl

/-! ### Levels outside a frame (R52, R69, R70) -/

@[simp] theorem LineIf.hears_view (b : Bool) : (l.hears b).view = l.view := by cases b <;> rfl
@[simp] theorem LineIf.hears_tx (b : Bool) : (l.hears b).tx = l.tx := by cases b <;> rfl
@[simp] theorem LineIf.hears_rx (b : Bool) : (l.hears b).rx = l.rx := by cases b <;> rfl
@[simp] theorem LineIf.hears_awaiting (b : Bool) : (l.hears b).awaiting = l.awaiting := by cases b <;> rfl
@[simp] theorem LineIf.hears_slot (b : Bool) : (l.hears b).slot = l.slot := by cases b <;> rfl
@[simp] theorem LineIf.hears_faulted (b : Bool) : (l.hears b).faulted = l.faulted := by cases b <;> rfl
@[simp] theorem LineIf.hears_stuck (b : Bool) : (l.hears b).stuck = l.stuck := by cases b <;> rfl
@[simp] theorem LineIf.hears_clock (b : Bool) : (l.hears b).clock = l.clock := by cases b <;> rfl

/-- A level outside a frame moves the two counts only, keeps them within their bounds, and breaks one of the two runs. -/
theorem LineIf.hears_counts (b : Bool) :
    l.hears b = { l with quietBits := (l.hears b).quietBits, dominantBits := (l.hears b).dominantBits } ∧
      (l.hears b).quietBits ≤ Config.idleGap ∧ (l.hears b).dominantBits ≤ Config.stuckBits + 1 ∧
      (b = false → (l.hears b).quietBits = 0) ∧ (b = true → (l.hears b).dominantBits = 0) := by
  cases b <;> simp [LineIf.hears, LineIf.counted]

/-- What levels in SETTLING or STUCK do: they move the two counts, within their bounds, and keep one of the two at 0. -/
theorem LineIf.hearsAll_counts {l l' : LineIf} {levels : List Bool} (h : l.hearsAll levels = some l')
    (hq : l.quietBits ≤ Config.idleGap) (hd : l.dominantBits ≤ Config.stuckBits + 1)
    (ho : l.quietBits = 0 ∨ l.dominantBits = 0) :
    l' = { l with quietBits := l'.quietBits, dominantBits := l'.dominantBits } ∧ l'.quietBits ≤ Config.idleGap ∧
      l'.dominantBits ≤ Config.stuckBits + 1 ∧ (l'.quietBits = 0 ∨ l'.dominantBits = 0) := by
  induction levels generalizing l with
  | nil => cases h; exact ⟨rfl, hq, hd, ho⟩
  | cons b rest ih =>
    unfold LineIf.hearsAll at h
    split at h
    · cases h
    · obtain ⟨he, hq', hd', h0, h1⟩ := l.hears_counts b
      have := ih h hq' hd' (by cases b; exacts [.inl (h0 rfl), .inr (h1 rfl)])
      rw [he] at this
      exact this

/-- Levels heard in two goes are heard as at once. -/
theorem LineIf.hearsAll_append :
    l.hearsAll (first ++ second) = (l.hearsAll first).bind fun l' => l'.hearsAll second := by
  induction first generalizing l with
  | nil => rfl
  | cons b rest ih =>
    simp only [List.cons_append, LineIf.hearsAll]
    split
    · rfl
    · exact ih _

/-! ### The slot (R197) -/

theorem Awaiting.slotLevels_append (w : Awaiting) (n : Nat) :
    w.slotLevels n (first ++ second) = w.slotLevels n first ++ w.slotLevels (n + first.length) second := by
  induction first generalizing n with
  | nil => rfl
  | cons o rest ih => simp [Awaiting.slotLevels, ih, Nat.add_comm, Nat.add_left_comm]

@[simp] theorem Awaiting.slotLevels_length (w : Awaiting) (n : Nat) (others : List Bool) :
    (w.slotLevels n others).length = others.length := by
  induction others generalizing n with
  | nil => rfl
  | cons o rest ih => simp [Awaiting.slotLevels, ih]

/-- The slot read in two goes reads as it does at once. -/
theorem LineIf.slotAfter_append :
    { l with slot := l.slotAfter first }.slotAfter second = l.slotAfter (first ++ second) := by
  simp [LineIf.slotAfter, Awaiting.slotLevels_append]

/-! ### Outcomes (R42, R65) -/

/-- An own attempt is completed when its frame is read back as sent, with two bit times more. -/
theorem LineIf.completes_iff (levels : List Bool) (a : Attempt) (recessive : Bool) :
    l.completes levels = some (a, recessive) ↔
      l.attempt = some a ∧
        ∃ b8 b9, l.frameAfter levels = some (a.frame.levels ++ [b8, b9]) ∧ recessive = (b8 && b9) := by
  unfold LineIf.completes
  cases l.attempt with
  | none => simp
  | some x =>
    cases l.frameAfter levels with
    | none => simp
    | some r =>
      simp only [Option.some.injEq]
      constructor
      · intro h
        split at h
        · next hr =>
          simp only [Option.some.injEq, Prod.mk.injEq] at h
          obtain ⟨rfl, rfl⟩ := h
          refine ⟨rfl, ?_⟩
          have hlen : (r.drop x.frame.levels.length).length = 2 := by simp [hr.1]
          obtain ⟨b8, b9, hd⟩ := List.length_eq_two.mp hlen
          refine ⟨b8, b9, ?_, by simp [hd]⟩
          rw [← List.take_append_drop x.frame.levels.length r, hd, hr.2]
        · cases h
      · rintro ⟨rfl, b8, b9, rfl, rfl⟩
        simp

/-- What OWN_FRAME_OUTCOME does when it takes place. -/
theorem ownFrameOutcome_of_completes {s : State} {a : Attempt} {levels : List Bool} {b8 b9 : Bool}
    (h : s.completes a levels b8 b9) (hk : a.frame.body.kind ≠ .snap) :
    execOwnFrameOutcome levels s =
      .next (let t := { s with line := s.line.toQuiet }
        if (b8 && b9) = true then t.ownTaken a else t.ownUnsent a false) := by
  have hc := (s.line.completes_iff levels a (b8 && b9)).mpr ⟨h.2.1, b8, b9, h.2.2, rfl⟩
  simp [execOwnFrameOutcome, happening, State.isOn, h.1, hc, Body.sequenced, hk]

/-- What FRAME_OUTCOME does when the slot of a heard frame has been read. -/
theorem frameOutcome_of_readsSlot {s : State} {r : Received} {v : Vote} {others : List Bool} {b8 b9 : Bool}
    (h : s.readsSlot r v others b8 b9) :
    execFrameOutcome others s =
      .next (let t := State.outcomeHeard { s with line := { s.line with awaiting := .nothing } } r v (b8 && b9)
        { t with line := t.line.toQuiet }.deliverFault s.line.faulted) := by
  have hlen : (s.line.slotAfter others).length = 3 := by
    have := congrArg List.length h.2.2
    simp at this
    omega
  simp [execFrameOutcome, happening, State.isOn, h.1, h.2.1, hlen, slotRecessive, h.2.2]

end Sys2Proof.Machine
end

