-- ==== Sys2Proof/Laws/Ops.lean ====
section
/-! SUPPORT. Laws/Ops.lean: what the shared operations answer, said once: the processing of a request (R178), the appending of
an event (R189), the hold-back queue (R117), the taking of a transaction (R176). -/

namespace Sys2Proof.Machine

/-! ### Processing (R178) -/

/-- R178: the processing of the request that the port has taken. -/
theorem process_asked {s : State} {c : Instr} {r : Request} (h : s.asksFor c r) (touch : Bool) (effect : State → Answer) :
    process c touch effect s =
      .next ((if touch then (effect s).state.touchHostCheck else (effect s).state).respond r.code (effect s).code
        (effect s).data) := by
  obtain ⟨hp, hr, hc⟩ := h
  have hon : (s.isOn && decide (s.port.request.map commandOf = some c)) = true := by simp [State.isOn, hp, hr, hc]
  rw [process, hon, happening_true]
  simp only [hr]

/-- A processing that the port has not taken does not happen. -/
theorem process_unasked {s : State} {c : Instr} (h : s.power ≠ .on ∨ s.port.request.map commandOf ≠ some c) (touch : Bool)
    (effect : State → Answer) : process c touch effect s = .next s := by
  have hoff : (s.isOn && decide (s.port.request.map commandOf = some c)) = false := by
    rcases h with h | h <;> simp [State.isOn, h]
  rw [process, hoff, happening_false]

/-- R156, R178, R179: a denied request is answered with the state as it was. -/
theorem process_denied {s : State} {c : Instr} {r : Request} (h : s.asksFor c r) (effect : State → Answer) (k : RespCode)
    (deny : effect s = s.deny k) : process c true effect s = .next (s.answeredWith [0x03#8, r.code, k.code]) := by
  rw [process_asked h, deny]
  rfl

/-! ### Events (R189) -/

/-- R189: counting a lost event in the newest record keeps the depth. -/
theorem bumpNewest_length (q : List Event) : (bumpNewest q).length = q.length := by
  fun_induction bumpNewest q with
  | case1 => rfl
  | case2 => rfl
  | case3 e e' rest ih => simp [ih]

/-- R189: the count of the newest record goes up, and no other record changes. -/
theorem bumpNewest_append (older : List Event) (newest : Event) :
    bumpNewest (older ++ [newest]) = older ++ [{ newest with count := some (min ((newest.count.getD 0) + 1) 255) }] := by
  induction older with
  | nil => rfl
  | cons e older ih =>
    cases older with
    | nil => rfl
    | cons e' older =>
      simp only [List.cons_append] at ih ⊢
      simp only [bumpNewest, ih]

/-- R189: the three cases of an append, by the depth. -/
theorem Port.append_cases (p : Port) (timeout : Nat) (e : Event) :
    (p.events.length < 31 ∧ (p.append timeout e).events = p.events ++ [e]) ∨
    (p.events.length = 31 ∧ (p.append timeout e).events = p.events ++ [{ kind := .overflow, count := some 1 }]) ∨
    (32 ≤ p.events.length ∧ (p.append timeout e).events = bumpNewest p.events) := by
  have hmax : Config.maxEvents = 32 := rfl
  rcases (by omega : p.events.length < 31 ∨ p.events.length = 31 ∨ 32 ≤ p.events.length) with h | h | h
  · exact .inl ⟨h, by simp [Port.append, hmax, show p.events.length + 1 < 32 by omega]⟩
  · exact .inr (.inl ⟨h, by simp [Port.append, hmax, h]⟩)
  · refine .inr (.inr ⟨h, ?_⟩)
    simp [Port.append, hmax, show ¬ p.events.length + 1 < 32 by omega, show p.events.length ≠ 31 by omega]

/-! ### The hold-back queue (R117) -/

/-- R117: the frame that joins the hold-back queue is its newest. -/
theorem holdBackAppend_newest (q : List Held) (h : Held) : (holdBackAppend q h).getLast? = some h := by
  unfold holdBackAppend
  split
  · rfl
  · split
    · simp
    · rfl

/-- R117: the hold-back queue never passes 16 frames. -/
theorem holdBackAppend_length (q : List Held) (h : Held) (hq : q.length ≤ Config.maxHoldBack) :
    (holdBackAppend q h).length ≤ Config.maxHoldBack := by
  have hmax : Config.maxHoldBack = 16 := rfl
  unfold holdBackAppend
  split
  · simp [hmax]
  · split
    · split <;> simp <;> omega
    · simp [hmax]

/-! ### Timers -/

/-- R108: what a station that leaves MEMBER or IN_STEP does to an absence timer. -/
@[simp] theorem Presence.quiesce_absence (p : Presence) (full : Nat) (n : StationNo) :
    (p.quiesce full).absence[n] = p.absence[n].unexpire full := by simp [Presence.quiesce]

/-- R104, R92: an absence timer runs for every member other than this station, and for no other. -/
@[simp] theorem Presence.watchMembers_absence (p : Presence) (r : Roster) (me : Option StationNo) (full : Nat)
    (n : StationNo) :
    (p.watchMembers r me full).absence[n] =
      if r.isMember n && decide (me ≠ some n) then .running full else .stopped := by simp [Presence.watchMembers]

/-- R100: no evict flag is set after the station has left MEMBER or IN_STEP. -/
theorem Presence.quiesce_evictFlag (p : Presence) (full : Nat) (n : StationNo) : (p.quiesce full).evictFlag n = false := by
  simp only [Presence.evictFlag, Presence.quiesce_absence]
  cases p.absence[n] <;> simp [Watch.unexpire]

/-! ### Step states -/

/-- R36, R116: entry to BEHIND, whatever the step state was. -/
theorem enterBehind_step (s : State) : s.enterBehind.order.step = .behind := by
  unfold State.enterBehind
  split <;> rename_i h
  · exact h
  · rfl

/-- R36, R116: entry to BEHIND keeps table, roster, station state, slots, expected number and last taken sequence heard. -/
theorem enterBehind_keeps (s : State) :
    s.enterBehind.table = s.table ∧ s.enterBehind.roster = s.roster ∧ s.enterBehind.mem = s.mem ∧
      s.enterBehind.slots = s.slots ∧ s.enterBehind.port = s.port ∧
      s.enterBehind.order.expected = s.order.expected ∧ s.enterBehind.order.lastHeard = s.order.lastHeard := by
  unfold State.enterBehind
  split <;> exact ⟨rfl, rfl, rfl, rfl, rfl, rfl, rfl⟩

/-! ### Transactions (R176) -/

/-- R176: what the taking of two or more whole bytes can do to the port: nothing (a NOP, or a FETCH that releases nothing),
release the response, set COLLIDED, take the request, or place BAD_FORM. -/
theorem Port.take_cases (p : Port) (response : Option (List Byte)) (code len : Byte) (body : List Byte) (cut : Bool) :
    let t := p.take response (code :: len :: body) cut
    t = p ∨ t = { p with response := none } ∨ (p.busy = true ∧ t = { p with collided := true }) ∨
      (p.busy = false ∧ transactionWellFormed (code :: len :: body) cut = true ∧
        t = { p with request := some { code := code, body := body }, response := none }) ∨
      (p.busy = false ∧ transactionWellFormed (code :: len :: body) cut = false ∧
        t = { p with response := some (responseBytes code .badForm []) }) := by
  simp only [Port.take]
  split
  · exact .inl rfl
  · split
    · unfold Port.takeFetch
      split
      · split
        · exact .inr (.inl rfl)
        · exact .inl rfl
      · exact .inl rfl
    · unfold Port.takeRequest
      cases hb : p.busy
      · cases hw : transactionWellFormed (code :: len :: body) cut
        · exact .inr (.inr (.inr (.inr ⟨rfl, rfl, rfl⟩)))
        · exact .inr (.inr (.inr (.inl ⟨rfl, rfl, rfl⟩)))
      · exact .inr (.inr (.inl ⟨rfl, rfl⟩))

end Sys2Proof.Machine
end

