-- ==== Sys2Proof/Laws/Table.lean ====
section
/-! SUPPORT. Laws/Table.lean: what each operation of the reservation table can do, said once (R8 to R23). -/

namespace Sys2Proof.Machine

/-! ### Grant evaluation (R16 to R18) -/

/-- R17: a visit passes over a HELD record, grants a WAITING one whose zones and units are free, or leaves it waiting. -/
theorem Walk.visit_cases (cap : Nat) (seq : Seq) (w : Walk) (r : Record) :
    (r.state = .held ∧ w.visit cap seq r = { w with done := w.done ++ [r] }) ∨
    (r.state = .waiting ∧ w.zonesFree r = true ∧ w.unitsFree cap r = true ∧ w.visit cap seq r = w.grant seq r) ∨
    (r.state = .waiting ∧ (w.zonesFree r = false ∨ w.unitsFree cap r = false) ∧
      w.visit cap seq r = w.passOver r) := by
  unfold Walk.visit
  cases hs : r.state with
  | held => simp
  | waiting =>
    cases hz : w.zonesFree r <;> cases hu : w.unitsFree cap r <;> simp

/-- R17: a record's zones are free when none of them is held and none is blocked by an earlier record left waiting. -/
theorem Walk.zonesFree_iff (w : Walk) (r : Record) :
    w.zonesFree r = true ↔
      ∀ z : Fin 32, r.covers z.val = true → w.zoneMap[z] = none ∧ ∀ b ∈ w.blocked, b.covers z.val = false := by
  unfold Walk.zonesFree Record.covers
  cases r.zones with
  | none => simp
  | some g =>
    simp only [List.all_eq_true, List.mem_finRange, true_implies, Bool.or_eq_true, Bool.not_eq_true',
      Bool.and_eq_true, decide_eq_true_eq]
    refine forall_congr' fun z => ?_
    cases g.covers z.val <;> simp

/-- R17: a record's units are free when it wants none, or no earlier record waits for units and they fit. -/
theorem Walk.unitsFree_iff (w : Walk) (cap : Nat) (r : Record) :
    w.unitsFree cap r = true ↔ r.units = 0 ∨ w.poolWait = false ∧ w.inUse + r.units ≤ cap := by
  simp [Walk.unitsFree]

/-- R5: the zone map after the marking of a range. -/
theorem markZones_get (m : Vector (Option (StationNo × Tag)) 32) (zones : Option Range) (who : StationNo × Tag)
    (z : Fin 32) :
    (markZones m zones who)[z] = if (zones.any fun g => g.covers z.val) = true then some who else m[z] := by
  cases zones <;> simp [markZones]

/-- The walk of a list in two parts goes on from where the first part leaves it. -/
theorem walk_append (cap : Nat) (seq : Seq) (w : Walk) (front back : List Record) :
    (front ++ back).foldl (Walk.visit cap seq) w = back.foldl (Walk.visit cap seq) (front.foldl (Walk.visit cap seq) w) :=
  List.foldl_append

/-! ### Removal (R3, R5, R6) -/

/-- R3: what stays after a removal, and what is gone, in their order. -/
theorem Table.remove_records (t : Table) (p : Record → Bool) :
    (t.remove p).1.records = t.records.filter (fun r => !p r) ∧ (t.remove p).2 = t.records.filter p := ⟨rfl, rfl⟩

/-- R5: a removal frees the zones that a removed HELD record covers, and no other. -/
theorem Table.remove_zone (t : Table) (p : Record → Bool) (z : Fin 32) :
    (t.remove p).1.zoneMap[z] = if heldCovers (t.records.filter p) z.val = true then none else t.zoneMap[z] := by
  simp [Table.remove]

/-- R16: a removal that removes nothing changes nothing and runs no evaluation; any other runs one, after all the
removals. -/
theorem Table.removeAndEvaluate_cases (t : Table) (cap : Nat) (seq : Seq) (p : Record → Bool) (tag : Option TagOutcome) :
    (t.records.filter p = [] ∧ t.removeAndEvaluate cap seq p tag = (t, { tag := tag })) ∨
    (t.records.filter p ≠ [] ∧
      t.removeAndEvaluate cap seq p tag =
        (((t.remove p).1.evaluate cap seq).1,
          { tag := tag, removed := t.records.filter p, grants := ((t.remove p).1.evaluate cap seq).2 })) := by
  unfold Table.removeAndEvaluate
  by_cases h : t.records.filter p = []
  · exact .inl ⟨h, by simp [Table.remove, h]⟩
  · exact .inr ⟨h, by simp [Table.remove, h]⟩

/-! ### Application (R8) -/

/-- R8, R16: the application of a frame leaves the table as it was, or appends one record and evaluates, or removes records
and evaluates. -/
theorem Table.apply_table_cases (t : Table) (cfg : Cfg) (isMember : StationNo → Bool) (f : Frame) :
    (t.apply cfg isMember f).1 = t ∨
    (∃ r : Record, r.owner = f.sender ∧ r.state = .waiting ∧ r.admittedAt = f.seq ∧
      (t.apply cfg isMember f).1 = (Table.evaluate { t with records := t.records ++ [r] } cfg.poolCapacity f.seq).1) ∨
    (∃ p : Record → Bool, t.records.filter p ≠ [] ∧
      (t.apply cfg isMember f).1 = ((t.remove p).1.evaluate cfg.poolCapacity f.seq).1) := by
  have removal (p : Record → Bool) (tag : Option TagOutcome) :
      (t.removeAndEvaluate cfg.poolCapacity f.seq p tag).1 = t ∨
      (∃ q : Record → Bool, t.records.filter q ≠ [] ∧
        (t.removeAndEvaluate cfg.poolCapacity f.seq p tag).1 =
          ((t.remove q).1.evaluate cfg.poolCapacity f.seq).1) := by
    rcases t.removeAndEvaluate_cases cfg.poolCapacity f.seq p tag with ⟨-, h⟩ | ⟨hp, h⟩
    · exact .inl (by rw [h])
    · exact .inr ⟨p, hp, by rw [h]⟩
  simp only [Table.apply]
  split
  · unfold Table.applyClaim
    split
    · exact .inr (.inl ⟨newRecord .., rfl, rfl, rfl, rfl⟩)
    · exact .inl rfl
  · exact (removal _ _).imp_right .inr
  · split
    · exact .inl rfl
    · split
      · exact .inl rfl
      · exact (removal _ _).imp_right .inr
  · split
    · exact (removal _ _).imp_right .inr
    · exact .inl rfl
  · split
    · exact (removal _ _).imp_right .inr
    · exact .inl rfl
  · split
    · split
      · exact (removal _ _).imp_right .inr
      · exact .inl rfl
    · exact .inl rfl
  all_goals exact .inl rfl

end Sys2Proof.Machine
end

