-- ==== Sys2Proof/Tests/Slice0.lean ====
section
/-! SUPPORT. Tests/Slice0.lean: the model's own tests (expected values from the spec's worked examples and tables), and
one witness for the hypotheses of each statement. -/

namespace Sys2Proof.Tests

open Sys2Proof.Machine

-- one test after the other: the witnesses, elaborated all at once, would ask for more threads than the check gives
set_option Elab.async false

/-! ### Helpers -/

/-- The state a command leaves. -/
def ran (c : Instr) (s : State) : State :=
  match exec c s with
  | .next t => t
  | .fault _ => s
  | .refused _ => s

/-- The state a step leaves. -/
def stepped (s : State) : State :=
  match step s with
  | .next t => t
  | .fault _ => s
  | .refused _ => s

/-- The state with the request taken whose processing `c` is. -/
def asked (s : State) (c : Instr) : State := { s with port := { s.port with request := requestOf c } }

/-- The request in the buffer, or an empty one. -/
def requestIn (s : State) : Request := s.port.request.getD { code := 0, body := [] }

def frameOf (n : StationNo) (q : Seq) (b : Body) : Frame := { sender := n, seq := q, body := b }

/-- Station 6, a MEMBER in step that expects 740, in a group with station 2; zone count 32, capacity 10. -/
def member : State :=
  { State.reset with
    cfg := { Cfg.default with poolCapacity := 10 }
    order := { Order.initial with step := .inStep, expected := 740, lastHeard := some 739 }
    roster :=
      { members := ((Vector.replicate 16 none).set 2 (some { joinedAt := 700, lastTaken := 739 })).set 6
          (some { joinedAt := 701, lastTaken := 738 })
        digest := some 0x1234#16 }
    mem := { State.reset.mem with state := .member, number := some 6, ownDigest := 0x1234#16, locked := true }
    pres :=
      { beat := .running 50, beatPending := false
        absence := (Vector.replicate 16 .stopped).set 2 (.running 300) }
    line := { LineIf.initial with view := .quiet, quietBits := 11 } }

/-- The state with slot `t` as `x`. -/
def withSlot (s : State) (t : Tag) (x : Slot) : State :=
  { s with slots := { s.slots with slots := s.slots.slots.set t x } }

/-- The state with one entry in its send queue. -/
def withEntry (s : State) (t : Tag) (k : EntryKind) : State :=
  { s with slots := { s.slots with queue := [{ id := 0, kind := k, tag := t, purged := false }], nextId := 1 } }

def pendingSlot : Slot := { Slot.empty with state := .pending, zones := some { lo := 4, hi := 5 } }
def waitingSlot : Slot := { pendingSlot with state := .waiting, admittedAt := some 730 }
def heldSlot : Slot := { pendingSlot with state := .held, admittedAt := some 730, grantedAt := some 731 }

/-- The attempt of the send queue's entry 0. -/
def entryAttempt (k : EntryKind) (b : Body) : Attempt := { source := .queue 0 k, frame := frameOf 6 740 b }

/-- The own attempt is on the line, the first `n` levels of its frame read back. -/
def reading (s : State) (a : Attempt) (n : Nat) : State :=
  { s with line := { s.line with
      view := .frame, quietBits := 0, rx := some (a.frame.levels.take n)
      tx := if n < a.frame.arbitration then .offering a else .sending a } }

/-- The own attempt is on the line, its frame read back as far as the slot. -/
def onLine (s : State) (a : Attempt) : State :=
  { s with line := { s.line with view := .frame, quietBits := 0, tx := .sending a, rx := some a.frame.levels } }

theorem onLine_completes (s : State) (a : Attempt) (b8 b9 : Bool) (h : s.power = .on) :
    (onLine s a).completes a [b8, b9] b8 b9 := ⟨h, rfl, rfl⟩

/-- The start bit of another station's frame has been read. -/
def hearing (s : State) : State := { s with line := { s.line with view := .frame, quietBits := 0, rx := some [false] } }

/-- The levels of a frame after its start bit, up to the one that shows its end. -/
def restOf (f : Frame) : List Bool := f.levels.dropLast.drop 1

/-- Another station's frame has ended and its slot is still to be read. -/
def heard (s : State) (f : Frame) (v : Vote) : State :=
  { s with line := { s.line with view := .frame, quietBits := 0, awaiting := .heard (.good f) v } }

/-- The slot of a frame, left recessive by the other stations. -/
def quietSlot : List Bool := [true, true, true]

def response (s : State) : List Byte := s.port.response.getD []

/-- What an event tells, its seq apart. -/
def told (s : State) : List (EventKind × Option Tag × Option CauseField) :=
  s.port.events.map fun e => (e.kind, e.tag, e.cause)

/-- 10_formats.md, the worked example: CLAIM 740 of station 6, tag 2, zones 4..5. -/
def claim740 : Frame := frameOf 6 740 (.claim 0x02#8 true 0x04#8 0x05#8 0)

/-! ### Well-formed commands: each check refuses -/

theorem test_wf_fetch_window : (Instr.fetch (List.replicate 256 0x00#8)).wellFormed = false ∧
    (Instr.fetch (List.replicate 255 0x00#8)).wellFormed = true := by decide +kernel

theorem test_wf_unknown_names_a_request : (Instr.unknown 0x20#8).wellFormed = false ∧
    (Instr.unknown 0x01#8).wellFormed = false ∧ (Instr.unknown 0x45#8).wellFormed = true := by decide

theorem test_wf_attempt_ends : (Instr.attemptFault []).wellFormed = false ∧ (Instr.attemptFault [true]).wellFormed = true ∧
    (Instr.attemptLost [false, true]).wellFormed = false ∧ (Instr.attemptLost [true, false]).wellFormed = true := by
  decide

theorem test_wf_frame_start_breaks : (Instr.lineFrameStart (List.replicate 5 false)).wellFormed = false ∧
    (Instr.lineFrameStart (List.replicate 4 false)).wellFormed = true := by decide

theorem test_wf_frame_broken : (Instr.frameBroken (List.replicate 7 false)).wellFormed = false ∧
    (Instr.frameBroken [true]).wellFormed = false ∧ (Instr.frameBroken (List.replicate 6 false)).wellFormed = true := by
  decide

theorem test_wf_frame_end : (Instr.frameEnd (List.replicate 7 true)).wellFormed = false ∧
    (Instr.frameEnd [false]).wellFormed = false ∧ (Instr.frameEnd (List.replicate 6 true)).wellFormed = true := by decide

theorem test_wf_slot_of_three : (Instr.frameOutcome (true :: quietSlot)).wellFormed = false ∧
    (Instr.frameOutcome quietSlot).wellFormed = true := by decide

theorem test_wf_zone_32 : (Instr.releaseEdge 32).wellFormed = false ∧ (Instr.releaseEdge 31).wellFormed = true := by
  decide

/-! ### Bits and bytes -/

theorem test_claim_content : claim740.content.length = 97 ∧
    claim740.content.take 11 = [false, true, false, false, true, true, false, false, true, false, true] ∧
    claim740.covered.drop 32 = [0x02#8, 0x01#8, 0x04#8, 0x05#8, 0x00#8, 0x00#8].flatMap byteBits := by decide

/-- The first stuff bit is the recessive one after five dominant bits of 02E4h. -/
theorem test_claim_first_stuff_bit : (stuff claim740.content).take 17 = claim740.content.take 16 ++ [true] ∧
    (stuff claim740.content).drop 17 ≠ [] := by decide

theorem test_claim_heard : receive claim740.levels = .good claim740 := by decide +kernel

/-- R198: another body length than the kind's is malformed; a bit changed on the way fails the check. -/
theorem test_check_fails : receive ((claim740.levels.take 30) ++ [!((claim740.levels[30]?).getD false)] ++
    (claim740.levels.drop 31)) ≠ .good claim740 := by decide +kernel

/-- R200: the listing of the defaults. -/
theorem test_digest_listing : digestListing 32 0 100 4 = [0x20#8, 0x00#8, 0x00#8, 0x00#8, 0x64#8, 0x04#8] := by decide

/-- R200, by hand: one input bit. The feedback of a 1 into FFFFh is 0, that of a 0 is 1. -/
theorem test_check_one_bit : checkValue [true] = 0xFFFE#16 ∧ checkValue [false] = 0xFFFE#16 ^^^ 0x1253#16 := by decide

theorem test_seq_relations : earlier 65535 0 = true ∧ later 0 65535 = true ∧ later 32768 0 = false ∧
    earlier 32768 0 = false ∧ opposite 32768 0 = true := by decide

/-- 10_formats.md: the ADMITTED record for slot 2. -/
theorem test_admitted_bytes : Event.bytes { kind := .admitted, seq := some 740, tag := some 2 } =
    [0x01#8, 0x03#8, 0x02#8, 0xE4#8, 0x02#8, 0x00#8, 0x00#8, 0x00#8, 0x00#8] := by decide

/-- 10_formats.md: nine bytes taken as an ASK. -/
theorem test_ask_taken :
    transactionWellFormed [0x20#8, 0x07#8, 0x01#8, 0x04#8, 0x05#8, 0x00#8, 0x00#8, 0x00#8, 0x00#8] false = true ∧
    commandOf { code := 0x20#8, body := [0x01#8, 0x04#8, 0x05#8, 0x00#8, 0x00#8, 0x00#8, 0x00#8] } =
      .ask 0x01#8 0x04#8 0x05#8 0 0 := by decide

/-! ### Reset, step and decode -/

/-- R73: STNA and STNB at 0 and 3, and at 2 and 1, are stations 3 and 9. -/
theorem test_straps :
    (ran (.powerOn { stnA := some 0, stnB := some 3, rate1 := some false, rate0 := some true } true) State.reset).mem.number
      = some 3 ∧
    (ran (.resetPin { stnA := some 2, stnB := some 1, rate1 := some true, rate0 := none } true) State.reset).mem.number
      = some 9 ∧
    (ran (.resetPin { stnA := some 2, stnB := some 1, rate1 := some true, rate0 := none } true) State.reset).mem.strapFault
      = true := by decide

theorem test_reset_pin_asserted : (ran .resetPinAsserted member).line = LineIf.initial ∧
    (ran .powerLoss member).power = .off := by decide

/-- R51: 125 bit times of 125 kbit/s are 1 ms. -/
theorem test_idle_step_ticks :
    let s (left : Nat) : State :=
      { member with line := { member.line with clock := 124 }, pres := { member.pres with beat := .running left } }
    (stepped member).pres.beat = .running 50 ∧ (stepped (s 50)).pres.beat = .running 49 ∧
    (stepped (s 1)).pres.beat = .running 0 ∧ (stepped (stepped (s 1))).pres.beatPending = true := by decide +kernel

/-- R52: a RESTART taken with the gap counted begins SETTLING anew, and the gap is waited for again. -/
theorem test_restart_waits_for_a_new_gap :
    let s := asked { member with line := { LineIf.initial with quietBits := 11 } } .restart
    let t := stepped (stepped s)
    (stepped s).line = LineIf.initial ∧ t.line.view = .settling ∧ t.line.quietBits = 1 ∧ t.pending = [] := by
  decide +kernel

/-- R52, R63: the CLAIM of station 6 has seven levels through its arbitration field. -/
theorem test_offering_turns_sending :
    let a := entryAttempt .claim claim740.body
    a.frame.arbitration = 7 ∧ (stepped (reading member a 5)).line.tx = .offering a ∧
    (stepped (reading member a 6)).line.tx = .sending a := by decide +kernel

/-- R197: a vetoing station drives bit times 8 and 9, and a frame ends in its sixth recessive bit. -/
theorem test_veto_is_driven :
    let s (n : Nat) : State := { heard member claim740 .veto with
      line := { (heard member claim740 .veto).line with slot := quietSlot.take n } }
    ((s 0).line.drive, (s 1).line.drive, (s 2).line.drive) = (true, false, false) ∧
    (stepped (s 1)).line.slot = [true, false] := by decide +kernel

theorem test_no_row_has_bits : decodeTableWord 8 0 = none ∧ State.reset.withFetchWord 8 0 = State.reset := ⟨rfl, rfl⟩

/-! ### Transactions (9.2, the worked example) -/

/-- ASK and then STATUS at once: the second is dropped and COLLIDED stands. -/
theorem test_status_dropped :
    let s := { asked member (.ask 1 3 3 0 0) with port := { member.port with
      request := requestOf (.ask 1 3 3 0 0), spi := .opened 0x83#8 none } }
    (ran (.transactionTake [0x40#8, 0x00#8] false) s).port.collided = true ∧
    (ran (.transactionTake [0x40#8, 0x00#8] false) s).port.request = requestOf (.ask 1 3 3 0 0) := by decide

theorem test_status_byte : (ran .ssnFallingEdge member).port.spi = .opened 0x03#8 none := by decide

/-- R173, R195: SDO is driven while SSN is low, and no more after a reset. -/
theorem test_sdo : member.sdoDrive = .highZ ∧ (ran .ssnFallingEdge member).sdoDrive = .driven ∧
    (ran .resetPinAsserted (ran .ssnFallingEdge member)).sdoDrive = .highZ := by decide

theorem test_collided_shown_clears :
    let s := { member with port := { member.port with collided := true, spi := .opened 0xA3#8 none } }
    (ran .nop s).port.collided = false ∧ (ran (.statusRead 0x55#8 true) s).port.sdo = [0xA3#8] := by decide

/-- A short window leaves READY set, a covering one clears it. -/
theorem test_fetch_windows :
    let s := { member with port := { member.port with
      response := some [0x04#8, 0x20#8, 0x00#8, 0x02#8], spi := .opened 0x43#8 (some [0x04#8, 0x20#8, 0x00#8, 0x02#8]) } }
    (ran (.fetch [0, 0, 0]) s).port.response = s.port.response ∧
    (ran (.fetch [0, 0, 0, 0, 0]) s).port.response = none ∧
    (ran (.fetch [0, 0, 0, 0, 0]) s).port.sdo.drop 2 = [0x04#8, 0x20#8, 0x00#8, 0x02#8, 0x00#8] := by decide

theorem test_bad_form :
    response (ran (.transactionTake [0x20#8, 0x07#8, 0x01#8] false)
      { member with port := { member.port with spi := .opened 0x03#8 none } }) = [0x03#8, 0x20#8, 0x05#8] := by decide

/-! ### Requests -/

/-- A SETUP body that passes: zone count 16, defaults else, ZL0 a GRANT_OUT on zone 5, ZL1 a RELEASE_IN on zone 5, LOW. -/
def goodSetup : SetupBody where
  zoneCount := 16
  poolCapacity := 0
  beatInterval := 100
  absenceLimit := 4
  hostCheckPeriod := 250
  triggerLevel := 4
  idleTimeout := 20
  lines := ((Vector.replicate 8 { mode := 0, zone := 0, polarity := 0 }).set 0
    { mode := 1, zone := 5, polarity := 0 }).set 1 { mode := 3, zone := 5, polarity := 1 }

theorem test_setup_accepted :
    response (ran (.setup goodSetup) (asked State.reset (.setup goodSetup))) = [0x03#8, 0x10#8, 0x00#8] ∧
    (ran (.setup goodSetup) (asked State.reset (.setup goodSetup))).cfg.lines[1] =
      { mode := .releaseIn, zone := 5, polarity := .low } := by decide

/-- R163, R201: a zone is checked against the zone count of the same SETUP, and a polarity byte whatever the mode. -/
theorem test_setup_lines :
    let ok (x : LineBody) := setupOk { goodSetup with lines := goodSetup.lines.set 2 x }
    ok { mode := 1, zone := 16, polarity := 0 } = false ∧ ok { mode := 1, zone := 15, polarity := 0 } = true ∧
    ok { mode := 0, zone := 255, polarity := 2 } = false ∧ ok { mode := 0, zone := 255, polarity := 1 } = true := by
  decide

/-- 11.1: absence limit 4 and beat interval 100 ms listen for 400 ms. -/
theorem test_start : (ran .start (asked State.reset .start)).mem.listen = .running 400 ∧
    told (ran .start (asked State.reset .start)) = [(.stationState, none, some (.cause .start))] := by decide

theorem test_restart_keeps_counters :
    let s := asked { member with port := { member.port with counters := member.port.counters.set 0 7 } } .restart
    (ran .restart s).port.counters[0] = 7 ∧ (ran .restart s).mem.state = .idle ∧
      response (ran .restart s) = [0x03#8, 0x12#8, 0x00#8] := by decide

/-- 10_formats.md: slots 0 and 1 HELD, the ASK opens slot 2 and answers 04 20 00 02. -/
theorem test_ask_opens_slot_2 :
    let s := asked (withSlot (withSlot member 0 heldSlot) 1 heldSlot) (.ask 1 4 5 0 0)
    response (ran (.ask 1 4 5 0 0) s) = [0x04#8, 0x20#8, 0x00#8, 0x02#8] ∧
      (ran (.ask 1 4 5 0 0) s).slots.slots[2] = pendingSlot := by decide

/-- 7, the worked example: FREE of a claim on the line marks it. -/
theorem test_free_on_line :
    let s := asked (onLine (withEntry (withSlot member 2 pendingSlot) 2 .claim)
      (entryAttempt .claim claim740.body)) (.free 2)
    (ran (.free 2) s).slots.slots[2] = { pendingSlot with mark := .releaseAfter, cause := some .host } := by decide

theorem test_free_held_drops_cover :
    let s := asked (withSlot member 0 heldSlot) (.free 0)
    s.covers 4 = true ∧ (ran (.free 0) s).covers 4 = false := by decide

theorem test_cancel_held_refused :
    response (ran (.cancel 0) (asked (withSlot member 0 heldSlot) (.cancel 0))) = [0x03#8, 0x22#8, 0x02#8] ∧
    ((ran (.cancel 0) (asked (withSlot member 0 waitingSlot) (.cancel 0))).slots.slots[0]).state = .cancelling := by
  decide

theorem test_surrender :
    let s := asked (withSlot (withSlot member 0 heldSlot) 1 waitingSlot) .surrender
    ((ran .surrender s).slots.slots[0]).cause = some .surrender ∧
      (ran .surrender s).slots.queue.map Entry.tag = [0, 1] := by decide

theorem test_depart : (ran .depart (asked member .depart)).mem.state = .leaving ∧
    response (ran .depart (asked State.reset .depart)) = [0x03#8, 0x30#8, 0x02#8] := by decide

theorem test_rejoin :
    let s := asked { member with mem := { member.mem with state := .detached }, order := Order.initial } .rejoin
    (ran .rejoin s).mem.state = .listening := by decide

theorem test_status_length : (response (ran .status (asked member .status))).length = 28 ∧
    (member.statusRecord.drop 7).take 3 = [0x00#8, 0x44#8, 0x02#8] := by decide

theorem test_view_bad_code : response (ran (.view 3 0 0) (asked member (.view 3 0 0))) = [0x03#8, 0x41#8, 0x01#8] := by
  decide

/-- 10_formats.md: four SLOTS entries are 76 bytes, the end marker alone 9. -/
theorem test_read_lengths :
    (response (ran (.read 4) (asked { member with port := { member.port with
      cursor := { view := .slots, index := 0, auto := true } } } (.read 4)))).length = 76 ∧
    (response (ran (.read 4) (asked member (.read 4)))).length = 9 := by decide

theorem test_take :
    let s := asked { member with port := { member.port with events := List.replicate 5 { kind := .lineClear } } } (.take 4)
    (ran (.take 4) s).port.events.length = 1 ∧ (response (ran (.take 4) s)).take 5 =
      [41#8, 0x43#8, 0x00#8, 0x01#8, 0x04#8] := by decide

theorem test_tally :
    let s := asked { member with port := { member.port with counters := member.port.counters.set 0 0x0102 } } .tally
    (response (ran .tally s)).take 5 = [59#8, 0x44#8, 0x00#8, 0x01#8, 0x02#8] ∧ (ran .tally s).port.counters[0] = 0 := by
  decide

theorem test_unknown_keeps_host_check :
    let s := asked { member with slots := { member.slots with hostCheck := .expired } } (.unknown 0x7F)
    (ran (.unknown 0x7F) s).slots.hostCheck = .expired ∧
      response (ran (.unknown 0x7F) s) = [0x03#8, 0x7F#8, 0x06#8] := by decide

/-! ### The line and own attempts -/

theorem test_line_settled_stuck_clear :
    (ran .lineSettled State.reset).line.view = .quiet ∧ told (ran .lineStuck State.reset) = [(.lineStuck, none, none)] ∧
    (ran .lineClear { State.reset with line := { LineIf.initial with view := .stuck, stuck := true } }).line.stuck = false := by
  decide

/-- R52, R70: a dominant level between 5 and 6 recessive ones begins the gap anew; 5 more complete it. -/
theorem test_dominant_level_begins_the_gap_anew :
    let levels := List.replicate 5 true ++ [false] ++ List.replicate 6 true
    let stuck : State := { State.reset with line := { LineIf.initial with view := .stuck, stuck := true } }
    let t := ran (.lineSettled levels) State.reset
    let u := ran (.lineClear levels) stuck
    (t.line.view, t.line.quietBits, u.line.view, u.line.quietBits) = (.settling, 6, .stuck, 6) ∧
    (ran (.lineSettled (List.replicate 5 true)) t).line.view = .quiet ∧
    (ran (.lineClear (List.replicate 5 true)) u).line.view = .quiet := by decide +kernel

/-- R69: dominant for 64 bit times raises nothing, for more it does; after a broken frame, 64 bit times after the break. -/
theorem test_line_stuck_after_the_limit :
    let broken := ran (.frameBroken (List.replicate 5 false)) (hearing member)
    (ran (.lineStuck (List.replicate 64 false)) State.reset).line.view = .settling ∧
    (ran (.lineStuck (List.replicate 65 false)) State.reset).line.view = .stuck ∧
    (ran (.lineStuck (List.replicate 63 false)) broken).line.view = .settling ∧
    (ran (.lineStuck (List.replicate 64 false)) broken).line.view = .stuck := by decide +kernel

theorem test_line_frame_start : (ran (.lineFrameStart [true]) member).line.rx = some [false, true] ∧
    ran .lineFrameStart State.reset = State.reset := by decide +kernel

/-- R59: a frame broken by its sixth dominant bit counts a check failure; the fifth breaks nothing. -/
theorem test_frame_broken :
    let t := ran (.frameBroken (List.replicate 5 false)) (hearing member)
    t.port.counters[4] = 1 ∧ t.line.view = .settling ∧
    (ran (.frameBroken (List.replicate 4 false)) (hearing member)).line.view = .frame := by decide

/-- 10_formats.md: the CLAIM of slot 2, filled with 740 at its start; a gap one bit short starts nothing. -/
theorem test_attempt_start :
    let s := withEntry (withSlot member 2 pendingSlot) 2 .claim
    (ran (.attemptStart 0) s).line.tx = .offering (entryAttempt .claim claim740.body) ∧
    (ran (.attemptStart 10) { s with line := { s.line with quietBits := 0 } }).line.tx = .idle := by decide

/-- R61: an entry at the head of another kind than CLAIM goes before a JOIN or BEAT; the LEAVE goes first of all. -/
theorem test_choose :
    let s := { withEntry member 2 .release with mem := { member.mem with pendingLeave := true } }
    s.choose = some .leave ∧ (withEntry member 2 .release).choose = some (.queue 0 .release) ∧ member.choose = none := by
  decide

/-- The first bit of class 10, sent recessive, is read dominant; with a dominant bit read recessive no attempt is lost. -/
theorem test_attempt_lost :
    let a := entryAttempt .claim claim740.body
    let s := reading (withEntry (withSlot member 2 { pendingSlot with mark := .releaseAfter }) 2 .claim) a 1
    let t := ran (.attemptLost [false]) s
    t.slots.slots[2] = Slot.empty ∧ t.port.counters[2] = 1 ∧ t.line.rx = some [false, false] ∧
      told t = [(.freed, some 2, some (.cause .notSent))] ∧
      (ran (.attemptLost [true, true]) s).port.counters[2] = 0 := by decide +kernel

theorem test_attempt_fault :
    let a := entryAttempt .claim claim740.body
    let t := ran (.attemptFault [true, true]) (reading member a 1)
    t.line.faulted = some { attempt := a, bit := 3 } ∧ t.line.rx = some [false, true, true] := by decide +kernel

/-- R40, R58: CLAIM 740 of station 2 is accepted at 740 and vetoed at 741. -/
theorem test_frame_end_votes :
    let f := { claim740 with sender := 2 }
    (ran (.frameEnd (restOf f)) (hearing member)).line.awaiting = .heard (.good f) .accept ∧
    (ran (.frameEnd (restOf f)) { hearing member with order := { member.order with expected := 741 } }).port.counters[3]
      = 1 := by
  decide +kernel

/-- R43, R91: JOIN 740 of station 9 with the group's digest makes it a member. -/
theorem test_join_taken :
    let t := ran (.frameOutcome quietSlot) (heard member (frameOf 9 740 (.join 0x1234)) .accept)
    t.roster.word = 0x0244#16 ∧ t.order.expected = 741 ∧
      told t = [(.peerIn, none, some (.cause .new))] := by decide

/-- 11.1: station 9 adopts the FOUND 0 of station 3. -/
theorem test_adopt :
    let s := { State.reset with mem := { State.reset.mem with
      state := .listening, number := some 9, listen := .running 40 } }
    let t := ran (.frameOutcome quietSlot) (heard s (frameOf 3 0 (.found 0x1234)) .abstain)
    t.mem.state = .joining ∧ t.order.step = .inStep ∧ t.order.expected = 1 ∧ t.roster.word = 0x0008#16 := by decide

/-- 7, the worked example: CLAIM 740 with the mark is admitted and granted, and the slot goes RELEASING. -/
theorem test_own_claim_marked :
    let x := { pendingSlot with mark := .releaseAfter, cause := some .host }
    let s := onLine (withEntry (withSlot member 2 x) 2 .claim) (entryAttempt .claim claim740.body)
    let t := ran (.ownFrameOutcome [true, true]) s
    t.slots.slots[2] = { x with state := .releasing, mark := .none, admittedAt := some 740, grantedAt := some 740 } ∧
      t.slots.queue.map Entry.kind = [.release] ∧
      told t = [(.admitted, some 2, none), (.granted, some 2, none)] := by decide +kernel

/-- The same claim vetoed: FREE, NOT_SENT, and the own-frame run counts. -/
theorem test_own_claim_vetoed :
    let x := { pendingSlot with mark := .releaseAfter, cause := some .host }
    let s := onLine (withEntry (withSlot member 2 x) 2 .claim) (entryAttempt .claim claim740.body)
    let t := ran (.ownFrameOutcome [true, false]) s
    t.slots.slots[2] = Slot.empty ∧ t.order.ownRun = 1 ∧ told t = [(.freed, some 2, some (.cause .notSent))] := by decide +kernel

/-! ### The reservation table -/

def recordOf (o : StationNo) (t : Tag) (z : Option Range) (u : Nat) (a : Seq) (g : Option Seq) : Record :=
  { owner := o, tag := t, zones := z, units := u, state := if g.isSome then .held else .waiting, admittedAt := a
    grantedAt := g }

/-- 1.4, the worked example, before frame 410. -/
def table410 : Table where
  records :=
    [recordOf 2 0 (some ⟨0, 1⟩) 0 398 (some 400), recordOf 5 1 none 6 399 (some 399), recordOf 5 0 (some ⟨1, 2⟩) 3 402 none,
     recordOf 7 1 none 2 404 none, recordOf 2 1 (some ⟨2, 3⟩) 0 405 none, recordOf 7 0 (some ⟨4, 4⟩) 1 407 none]
  zoneMap := ((Vector.replicate 32 none).set 0 (some (2, 0))).set 1 (some (2, 0))
  inUse := 6

def cfg410 : Cfg := { Cfg.default with zoneCount := 8, poolCapacity := 10 }

/-- What the example's table shows of each record. -/
def shown (t : Table) : List (Nat × Nat × Option Seq) := t.records.map fun r => (r.owner.val, r.tag.val, r.grantedAt)

def after410 : Table × Report := table410.apply cfg410 (fun _ => true) (frameOf 2 410 (.release 0))

/-- Frame 410: RELEASE of (2, 0) grants (5, 0) alone. -/
theorem test_release_410 : shown after410.1 =
      [(5, 1, some 399), (5, 0, some 410), (7, 1, none), (2, 1, none), (7, 0, none)] ∧ after410.1.inUse = 9 ∧
    after410.2.tag = some .removed ∧ after410.2.grants = [(5, 0)] := by decide +kernel

/-- Frame 411: WITHDRAW of (7, 1) grants (7, 0). -/
theorem test_withdraw_411 :
    let r := after410.1.apply cfg410 (fun _ => true) (frameOf 7 411 (.withdraw 1))
    shown r.1 = [(5, 1, some 399), (5, 0, some 410), (2, 1, none), (7, 0, some 411)] ∧ r.1.inUse = 10 ∧
      r.2.grants = [(7, 0)] ∧ r.1.zoneMap[0] = none ∧ r.1.zoneMap[1] = some (5, 0) := by decide +kernel

/-- R20: a WITHDRAW of a HELD record removes nothing. -/
theorem test_withdraw_held : (table410.apply cfg410 (fun _ => true) (frameOf 2 410 (.withdraw 0))).1 = table410 ∧
    (table410.apply cfg410 (fun _ => true) (frameOf 2 410 (.withdraw 0))).2.tag = some .stillHeld := by decide +kernel

/-- R10: a claim that names a zone past the count is RANGE, the same tag again DUPLICATE. -/
theorem test_claim_refused :
    (table410.apply cfg410 (fun _ => true) (frameOf 3 410 (.claim 0 true 7 8 0))).2.claim = some (.refused .range) ∧
    (table410.apply cfg410 (fun _ => true) (frameOf 5 410 (.claim 1 true 7 8 0))).2.claim = some (.refused .duplicate) := by
  decide +kernel

/-! ### Catch-up -/

def kept (n : Nat) : Held := { frame := frameOf 2 (BitVec.ofNat 16 n) .leave, own := false }

/-- R130: the four rows of the run check. -/
theorem test_run_check :
    runCheck ([309, 310, 311, 312, 313, 314].map kept) 310 (some 314) = true ∧
    runCheck ([312, 313, 314].map kept) 310 (some 314) = false ∧
    runCheck ([311, 312, 313, 314].map kept) 314 (some 314) = true ∧
    runCheck ([313, 314].map kept) 316 (some 314) = true := by decide +kernel

/-- R117: a full queue loses its oldest entry. -/
theorem test_hold_back_full :
    (holdBackAppend ((List.range 16).map kept) (kept 16)).length = 16 ∧
    (holdBackAppend ((List.range 16).map kept) (kept 16)).head? = some (kept 1) := by decide +kernel

/-- R121, R123: SYNCREQ 740 of station 9 starts a serve at base 740 when this station is the server. -/
theorem test_serve :
    let nine : Member := { joinedAt := 1, lastTaken := 1 }
    let s := { member with roster := { member.roster with members := (member.roster.members.set 2 none).set 9 (some nine) } }
    let t := ran (.frameOutcome quietSlot) (heard s (frameOf 9 740 .syncreq) .accept)
    t.cu.serve = some { requester := 9, base := 740, count := 1, index := 0 } := by decide +kernel

theorem test_snap_sent :
    let a : Attempt := { source := .snap 0, frame := frameOf 6 739 (.snapHeader 9 1 0 0 0 0 []) }
    let s := onLine { member with cu := { CatchUp.idle with
      serve := some { requester := 9, base := 739, count := 1, index := 0 }, buffer := some member.capture } } a
    (ran (.snapSent [false, false]) s).port.counters[9] = 1 ∧ (ran (.snapSent [false, false]) s).cu.serve = none := by
  decide +kernel

/-! ### Timers -/

theorem test_listen_and_beat :
    (ran .listenTimerExpiry { State.reset with mem := { State.reset.mem with state := .listening, listen := .running 1 } }).mem.state
      = .founding ∧
    (ran .beatTimerExpiry member).pres.beatPending = true ∧ (ran .beatTimerExpiry member).pres.beat = .running 100 := by
  decide

theorem test_absence : (ran (.absenceTimerExpiry 2) member).choose = some (.evict 2) := by decide

/-- R135: the third failed attempt isolates the station. -/
theorem test_catchup_wait :
    let s := { member with
      order := { member.order with step := .behind }
      cu := { CatchUp.idle with phase := .awaiting, attempts := 2, wait := .running 1 } }
    (ran .catchupWaitExpiry s).mem.state = .isolated ∧
    (ran .catchupWaitExpiry { s with cu := { s.cu with attempts := 1 } }).cu.attempts = 2 := by decide

theorem test_hold_timer :
    let t := ran (.holdTimerExpiry 0) (withSlot member 0 { heldSlot with holdLimit := 9, holdTimer := .running 1 })
    told t = [(.holdExpired, some 0, none)] ∧ (t.slots.slots[0]).cause = some .hold := by decide

/-- 11.6: slot 0 HELD and slot 1 WAITING are surrendered. -/
theorem test_host_check :
    let s := withSlot (withSlot member 0 heldSlot) 1 waitingSlot
    let t := ran .hostCheckExpiry { s with slots := { s.slots with hostCheck := .running 1 } }
    told t = [(.hostSilent, none, none)] ∧ t.slots.hostCheck = .expired ∧ t.covers 4 = false := by decide

theorem test_idle_timer :
    let s := { member with port := { member.port with events := [{ kind := .lineClear }], idleTimer := .running 1 } }
    (ran .idleTimerExpiry s).port.idleFlag = true ∧ (ran .idleTimerExpiry s).intAsserted = true := by decide

/-! ### Zone lines (8, the worked example) -/

def exampleLines : Vector LineCfg 8 :=
  (member.cfg.lines.set 0 { mode := .grantOut, zone := 5, polarity := .high }).set 1
    { mode := .releaseIn, zone := 5, polarity := .low }

/-- ZL1 a RELEASE_IN on zone 5, LOW, settled high; ZL0 a GRANT_OUT on zone 5; slot 0 HELD with zones 4..5. -/
def limitSwitch : State :=
  { withSlot member 0 heldSlot with
    cfg := { member.cfg with lines := exampleLines }
    zl := { ZoneLines.initial with
      settled := ZoneLines.initial.settled.set 1 true, pinIn := ZoneLines.initial.pinIn.set 1 true } }

theorem test_switch_closes : (ran (.releaseInPinChange 1 false) limitSwitch).zl.qual[1] = .running 1 ∧
    limitSwitch.pinDrive 0 = .high := by decide

theorem test_qualified :
    let s := { limitSwitch with zl := { limitSwitch.zl with
      pinIn := limitSwitch.zl.pinIn.set 1 false, qual := limitSwitch.zl.qual.set 1 (.running 1) } }
    (ran (.qualificationExpiry 1) s).zl.edges = [5] ∧ (ran (.qualificationExpiry 1) s).zl.settled[1] = false := by decide

theorem test_release_edge :
    let s := { limitSwitch with zl := { limitSwitch.zl with edges := [5] } }
    (ran (.releaseEdge 5) s).pinDrive 0 = .low ∧ ((ran (.releaseEdge 5) s).slots.slots[0]).cause = some .line ∧
    (ran (.releaseEdge 5) { s with slots := SlotUnit.initial }).port.counters[11] = 1 := by decide

/-! ### Event queue (9.7, the worked example) -/

def filled (n : Nat) : State :=
  { member with port := { member.port with events := List.replicate n { kind := .granted, tag := some 6 } } }

/-- Depth 30 appends; depth 31 appends an OVERFLOW with count 1, which the next two count up to 3. -/
theorem test_queue_fills :
    let e : Event := { kind := .granted, tag := some 1 }
    ((filled 30).emit e).port.events.getLast? = some e ∧
    ((filled 31).emit e).port.events.getLast? = some { kind := .overflow, count := some 1 } ∧
    ((((filled 31).emit e).emit e).emit e).port.events.getLast? = some { kind := .overflow, count := some 3 } ∧
    ((((filled 31).emit e).emit e).emit e).port.events.length = 32 := by decide +kernel

/-! ### Witnesses: concrete states and operands that meet the hypotheses of each statement, clause by clause. The
statements without hypotheses have none. -/

def opened (s : State) (status : Byte) (r : Option (List Byte)) : State :=
  { s with port := { s.port with response := r, spi := .opened status r } }

def inStation (s : State) (st : StationState) : State := { s with mem := { s.mem with state := st } }

/-- A member whose timers all run, with nothing due, in the bit time numbered so. -/
def ticking (clock : Nat) : State :=
  { member with
    line := { LineIf.initial with clock := clock }
    mem := { member.mem with listen := .running 2 }
    cu := { member.cu with wait := .running 1 }
    port := { member.port with idleTimer := .running 1 }
    zl := { member.zl with qual := member.zl.qual.set 1 (.running 1) }
    slots := { member.slots with
      hostCheck := .running 2, slots := member.slots.slots.set 3 { Slot.empty with holdTimer := .running 1 } } }

/-- The member, every one of whose timers has run out. -/
def runOut : State :=
  let s := ticking 0
  { s with
    mem := { s.mem with listen := .running 0 }
    pres := { s.pres with beat := .running 0, absence := Vector.replicate 16 (.running 0) }
    cu := { s.cu with wait := .running 0 }
    port := { s.port with idleTimer := .running 0 }
    zl := { s.zl with qual := Vector.replicate 8 (.running 0) }
    slots := { s.slots with hostCheck := .running 0, slots := Vector.replicate 8 { Slot.empty with holdTimer := .running 0 } } }

theorem witness_EmptyQueueRunsTheStation :
    let s := ticking 124
    let own (n : Nat) := reading member (entryAttempt .claim claim740.body) n
    let vetoing (n : Nat) : State := { heard member claim740 .veto with
      line := { (heard member claim740 .veto).line with slot := quietSlot.take n } }
    (s.pending = [] ∧ { s with power := .inReset }.power ≠ .on) ∧
    ((asked member .tally).pending = [] ∧ (asked member .tally).power = .on ∧
      (asked member .tally).port.request = some { code := 0x44#8, body := [] }) ∧
    (s.power = .on ∧ s.dueNow = [] ∧ s.mem.listen = .running (1 + 1) ∧ s.pres.beat = .running (49 + 1) ∧
      s.pres.absence[2] = .running (299 + 1) ∧ s.slots.hostCheck = .running (1 + 1) ∧ s.cu.wait = .running (0 + 1) ∧
      (s.slots.slots[3]).holdTimer = .running (0 + 1) ∧ s.port.idleTimer = .running (0 + 1) ∧
      s.zl.qual[1] = .running (0 + 1) ∧ s.line.view ≠ .frame ∧
      runOut.dueNow.head? = some .listenTimerExpiry ∧ runOut.mem.listen = .running 0 ∧ runOut.pres.beat = .running 0 ∧
      runOut.cu.wait = .running 0 ∧ runOut.slots.hostCheck = .running 0 ∧ runOut.port.idleTimer = .running 0 ∧
      (∀ x : StationNo, runOut.pres.absence[x] = .running 0) ∧ (∀ l : LineNo, runOut.zl.qual[l] = .running 0) ∧
      (∀ k : Tag, (runOut.slots.slots[k]).holdTimer = .running 0) ∧
      s.mem.rate.bitsPerMs ≤ s.line.clock + 1 ∧ (ticking 123).line.clock + 1 < (ticking 123).mem.rate.bitsPerMs) ∧
    ((hearing member).dueNow = [] ∧ (hearing member).line.tx = .idle ∧ (hearing member).line.rx = some [false]) ∧
    (∀ n ∈ [0, 6, 7], (own n).dueNow = [] ∧ (own n).line.awaiting = .nothing) ∧
    ((own 6).line.tx = .offering (entryAttempt .claim claim740.body) ∧
      (own 7).line.tx = .sending (entryAttempt .claim claim740.body) ∧
      (entryAttempt .claim claim740.body).frame.sent[6]? = some false) ∧
    (∀ n ∈ [0, 1, 2], (vetoing n).dueNow = [] ∧ (vetoing n).line.tx = .idle ∧ (vetoing n).line.slot.length = n ∧
      (vetoing n).line.awaiting = .heard (.good claim740) .veto) ∧
    (heard member claim740 .accept).dueNow = [] := by decide +kernel

def someStraps : Straps := { stnA := some 3, stnB := some 0, rate1 := some true, rate0 := some false }
def badStraps : Straps := { stnA := none, stnB := some 0, rate1 := some false, rate0 := none }

theorem witness_ResetReadsTheStraps :
    (member.power ≠ .off ∧ { member with power := .off }.power = .off) ∧
    (someStraps.stnA = some 3 ∧ someStraps.stnB = some 0 ∧ someStraps.rate1 = some true ∧ someStraps.rate0 = some false) ∧
    (badStraps.stnA = none ∧ badStraps.rate0 = none) := by decide

theorem witness_ResetHeldCutsLineAndPort : member.power = .on ∧ { member with power := .inReset }.power ≠ .off := by
  decide

theorem witness_StrapReadingsStay :
    exec .lineFrameStart member = .next (ran .lineFrameStart member) ∧
    (∀ x h, Instr.lineFrameStart ≠ .powerOn x h) ∧ ∀ x h, Instr.lineFrameStart ≠ .resetPin x h :=
  ⟨rfl, nofun, nofun⟩

theorem witness_FallOfSsnLatchesTheStatusByte : member.power = .on ∧ member.port.spi = .ready := by decide

theorem witness_OpenTransactionIsUndisturbed :
    let c : Instr := .beatTimerExpiry
    let s := opened member 0x03#8 none
    exec c s = .next (ran c s) ∧ (∀ b k, c ≠ .transactionTake b k) ∧ (∀ b k, c ≠ .statusRead b k) ∧ c ≠ .nop ∧
      (∀ w, c ≠ .fetch w) ∧ c ≠ .ssnFallingEdge ∧ (∀ x h, c ≠ .powerOn x h) ∧ (∀ x h, c ≠ .resetPin x h) ∧
      c ≠ .resetPinAsserted ∧ c ≠ .powerLoss :=
  ⟨rfl, nofun, nofun, nofun, nofun, nofun, nofun, nofun, nofun, nofun⟩

/-- A well-formed STATUS, a FETCH whose window is not as long as declared, and a STATUS while BUSY. -/
theorem witness_TransactionIsDroppedRefusedOrTaken :
    let s := opened member 0x03#8 none
    (s.power = .on ∧ s.port.spi = .opened 0x03#8 none ∧ s.port.request = none ∧ (asked s .tally).port.request.isSome = true ∧
      (asked s .tally).port.spi = .opened 0x03#8 none) ∧
    (([] : List Byte).length = (0x00#8).toNat ∧ (∀ n, bodyLength 0x40#8 = some n → (0x00#8).toNat = n) ∧
      ¬ (0x40#8 = 0x00#8 ∨ 0x40#8 = 0x01#8)) ∧
    ([0x00#8].length ≠ (0x02#8).toNat) :=
  ⟨by decide, ⟨by decide, fun _ h => Option.some.inj h, by decide⟩, by decide⟩

theorem witness_StatusReadAndNopShowOnly :
    let s := opened member 0x23#8 none
    s.power = .on ∧ s.port.spi = .opened 0x23#8 none ∧
    { s with port := { s.port with spi := .waitHigh } }.port.spi = .waitHigh := by decide

/-- A response of four bytes with windows of 0, 3, 4 and 255, and no response. -/
theorem witness_FetchShowsAndReleasesTheResponse :
    let r := [0x04#8, 0x20#8, 0x00#8, 0x02#8]
    let s := opened member 0x43#8 (some r)
    s.power = .on ∧ s.port.spi = .opened 0x43#8 (some r) ∧ ([] : List Byte).length ≤ 255 ∧ r.length ≤ r.length ∧
      (r.take 3).length < r.length ∧ (List.replicate 255 0x00#8).length ≤ 255 ∧
      (opened member 0x03#8 none).port.spi = .opened 0x03#8 none := by decide +kernel

theorem witness_RequestBytesReadBack :
    requestOf (.ask 1 4 5 0 0) = some { code := 0x20#8, body := [1, 4, 5, 0, 0, 0, 0] } ∧
    (Instr.ask 1 4 5 0 0).wellFormed = true ∧ requestOf (.unknown 0x45#8) = some { code := 0x45#8, body := [] } ∧
    (Instr.unknown 0x45#8).wellFormed = true := by decide

theorem witness_RefusedRequestsChangeNothing :
    let c : Instr := .ask 1 4 5 0 0
    let s := asked State.reset c
    s.asksFor c (requestIn s) ∧ exec c s = .next (ran c s) ∧
      (ran c s).port.response = some [0x03#8, (requestIn s).code, 0x02#8] ∧ 0x02#8 ≠ 0x00#8 := by
  refine ⟨by decide, rfl, by decide, by decide⟩

def withHostCheck (s : State) (w : Watch) : State :=
  { s with cfg := { s.cfg with hostCheckPeriod := 250 }, slots := { s.slots with hostCheck := w } }

theorem witness_RequestsRestartTheHostCheck :
    let start := asked (withHostCheck State.reset .stopped) .start
    let view := asked (withHostCheck member .expired) (.view 0 0 0)
    (start.asksFor .start (requestIn start) ∧ (ran .start start).port.response = some [0x03#8, 0x11#8, 0x00#8] ∧
      start.cfg.hostCheckPeriod ≠ 0) ∧
    (view.asksFor (.view 0 0 0) (requestIn view) ∧ view.slots.hostCheck ≠ .stopped) ∧
    ((asked member .restart).asksFor .restart (requestIn (asked member .restart)) ∧
      (asked member (.unknown 0x45)).asksFor (.unknown 0x45) (requestIn (asked member (.unknown 0x45)))) ∧
    ((asked member .tally).asksFor .tally (requestIn (asked member .tally)) ∧
      (asked member .tally).slots.hostCheck = .stopped) ∧
    ∀ c s, (c, s) ∈ [(Instr.start, start), (.view 0 0 0, view)] → exec c s = .next (ran c s) := by
  refine ⟨by decide, by decide, by decide, by decide, ?_⟩
  intro c s h
  simp only [List.mem_cons, List.not_mem_nil, or_false, Prod.mk.injEq] at h
  obtain ⟨rfl, rfl⟩ | ⟨rfl, rfl⟩ := h <;> rfl

theorem witness_SetupReplacesTheConfiguration :
    let c : Instr := .setup goodSetup
    let bad : Instr := .setup { goodSetup with zoneCount := 0 }
    (asked State.reset c).asksFor c (requestIn (asked State.reset c)) ∧ State.reset.mem.locked = false ∧
    State.reset.mem.state = .idle ∧ setupOk goodSetup = true ∧
    ((asked member c).asksFor c (requestIn (asked member c)) ∧ (asked member c).mem.locked = true) ∧
    ((asked State.reset bad).asksFor bad (requestIn (asked State.reset bad)) ∧
      setupOk { goodSetup with zoneCount := 0 } = false) ∧
    (goodSetup.lines[0].mode = 0x01#8 ∧ goodSetup.lines[1].mode = 0x03#8 ∧ goodSetup.lines[2].mode = 0x00#8 ∧
      (ran c (asked State.reset c)).cfg.lines[1] ≠ State.reset.cfg.lines[1] ∧
      (ran c (asked State.reset c)).cfg.lines[1].mode = .releaseIn) ∧
    (goodSetup.idleTimeout ≠ 0x00#8 ∧ State.reset.port.events = []) := by decide

theorem witness_StartLocksAndListens :
    let s := asked State.reset .start
    s.asksFor .start (requestIn s) ∧ s.mem.state = .idle ∧ s.mem.strapFault = false ∧
    (asked member .start).asksFor .start (requestIn (asked member .start)) ∧ (asked member .start).mem.state ≠ .idle := by
  decide

theorem witness_RestartIsASoftReset :
    let s := asked { member with cfg := { member.cfg with lines := exampleLines } } .restart
    s.asksFor .restart (requestIn s) ∧ s.cfg.lines[1].mode = .releaseIn := by decide

/-- Station 6 with every slot WAITING. -/
def fullSlots : State := { member with slots := { member.slots with slots := Vector.replicate 8 waitingSlot } }

theorem witness_AskOpensTheLowestSlot :
    let c : Instr := .ask 1 31 31 10 0
    let open2 : State := withSlot fullSlots 2 Slot.empty
    (∀ s ∈ [asked State.reset c, asked member c, asked fullSlots c, asked open2 c], s.asksFor c (requestIn s)) ∧
    (asked State.reset c).mem.state ≠ .member ∧ open2.mem.state = .member ∧
    ((0x01#8).getLsbD 0 = true ∧ (0x1F#8).toNat ≤ (0x1F#8).toNat ∧ (0x1F#8).toNat < open2.cfg.zoneCount ∧
      (0x000A#16).toNat ≤ open2.cfg.poolCapacity ∧ ¬ (0x000B#16).toNat ≤ open2.cfg.poolCapacity) ∧
    (∀ t : Tag, ¬ ((fullSlots.slots.slots[t]).state = .free ∧ ∀ e ∈ fullSlots.slots.queue, e.tag ≠ t)) ∧
    ((open2.slots.slots[(2 : Tag)]).state = .free ∧ (∀ e ∈ open2.slots.queue, e.tag ≠ 2) ∧
      ∀ u : Tag, ((open2.slots.slots[u]).state = .free ∧ ∀ e ∈ open2.slots.queue, e.tag ≠ u) → 2 ≤ u) := by
  decide +kernel

/-- The slot 7 in each state, with and without its entry on the line. -/
def slotCases : List State :=
  let on (x : Slot) (k : EntryKind) := onLine (withEntry (withSlot member 7 x) 7 k) (entryAttempt k .leave)
  let withdrawing : Slot := { waitingSlot with state := .cancelling }
  [member, withEntry (withSlot member 7 pendingSlot) 7 .claim, on pendingSlot .claim,
   on { pendingSlot with mark := .releaseAfter } .claim, withSlot member 7 waitingSlot, withSlot member 7 heldSlot,
   on heldSlot .withdraw, withEntry (withSlot member 7 withdrawing) 7 .withdraw, on withdrawing .withdraw,
   on { withdrawing with mark := .releaseAfter } .withdraw, withSlot member 7 { waitingSlot with state := .releasing }]

/-- What the clauses of FREE and CANCEL ask of slot 7: state, entry, entry on the line, mark. -/
def slotShape (s : State) : SlotState × Bool × Bool × Mark :=
  ((s.slots.slots[(7 : Tag)]).state, (s.slots.entryOf 7).isSome, s.slotOnLine 7, (s.slots.slots[(7 : Tag)]).mark)

theorem witness_FreeGivesUpTheSlot :
    (∀ s ∈ slotCases, (asked s (.free 7)).asksFor (.free 7) (requestIn (asked s (.free 7))) ∧ s.mem.state = .member) ∧
    (slotCases.map slotShape =
      [(.free, false, false, .none), (.pending, true, false, .none), (.pending, true, true, .none),
       (.pending, true, true, .releaseAfter), (.waiting, false, false, .none), (.held, false, false, .none),
       (.held, true, true, .none), (.cancelling, true, false, .none), (.cancelling, true, true, .none),
       (.cancelling, true, true, .releaseAfter), (.releasing, false, false, .none)]) ∧
    ((asked member (.free 8)).asksFor (.free 8) (requestIn (asked member (.free 8))) ∧ 7 < (0x08#8).toNat) ∧
    ((asked State.reset (.free 7)).asksFor (.free 7) (requestIn (asked State.reset (.free 7))) ∧
      (0x07#8).toNat ≤ 7 ∧ State.reset.mem.state ≠ .member ∧ State.reset.mem.state ≠ .leaving) := by decide +kernel

/-- The shapes are those of `slotCases`, as shown for FREE. -/
theorem witness_CancelDropsAnUngrantedClaim :
    (∀ s ∈ slotCases, (asked s (.cancel 7)).asksFor (.cancel 7) (requestIn (asked s (.cancel 7))) ∧
      s.mem.state = .member) ∧
    ((asked member (.cancel 8)).asksFor (.cancel 8) (requestIn (asked member (.cancel 8))) ∧ 7 < (0x08#8).toNat) ∧
    ((asked State.reset (.cancel 7)).asksFor (.cancel 7) (requestIn (asked State.reset (.cancel 7))) ∧
      State.reset.mem.state ≠ .member ∧ State.reset.mem.state ≠ .leaving) := by decide +kernel

/-- The slots of `slotCases`, which show every state of a slot with its entry on the line and off it. -/
theorem witness_SurrenderGivesUpEverySlot :
    (∀ s ∈ slotCases, (asked s .surrender).asksFor .surrender (requestIn (asked s .surrender)) ∧ s.mem.state = .member) ∧
    ((slotCases.map fun s => decide ((s.slots.slots[(7 : Tag)]).mark = .releaseAfter)).filter id).length = 2 ∧
    ((asked State.reset .surrender).asksFor .surrender (requestIn (asked State.reset .surrender)) ∧
      State.reset.mem.state ≠ .member ∧ State.reset.mem.state ≠ .leaving) := by decide +kernel

theorem witness_DepartQueuesALeaveAndRejoinListens :
    let out := asked (inStation State.reset .refused) .rejoin
    (out.asksFor .rejoin (requestIn out) ∧ out.mem.state = .refused) ∧
    ((asked member .rejoin).asksFor .rejoin (requestIn (asked member .rejoin)) ∧ member.mem.state = .member) ∧
    ((asked member .depart).asksFor .depart (requestIn (asked member .depart)) ∧ member.order.step = .inStep ∧
      member.pres.absence[2] ≠ .expired) ∧
    ((asked State.reset .depart).asksFor .depart (requestIn (asked State.reset .depart)) ∧
      ¬ (State.reset.mem.state = .member ∧ State.reset.order.step = .inStep)) := by decide

theorem witness_StatusAnswersTheRecord : (asked member .status).asksFor .status (requestIn (asked member .status)) := by
  decide

theorem witness_ViewSetsTheCursorAndReadFollowsIt :
    (∀ c ∈ [Instr.view 2 255 1, .view 3 0 0, .view 0 0 2, .read 0, .read 1, .read 4, .read 5],
      (asked member c).asksFor c (requestIn (asked member c))) ∧
    (2 < (0x03#8).toNat ∧ 1 < (0x02#8).toNat ∧ (0x01#8).toNat ≤ 1) ∧
    ((0x00#8).toNat = 0 ∧ 4 < (0x05#8).toNat ∧ 1 ≤ (0x01#8).toNat ∧ (0x04#8).toNat ≤ 4) ∧
    ({ member with table := table410 }.table.records[(5 : Nat)]? = some (recordOf 7 0 (some ⟨4, 4⟩) 1 407 none) ∧
      (recordOf 5 1 none 6 399 (some 399)).zones = none) ∧
    ((slotCases.map fun s => (s.slots.slots[(7 : Tag)]).state).contains .free = true ∧
      (withSlot member 7 { heldSlot with holdTimer := .running 9 }).slots.slots[(7 : Tag)] =
        { heldSlot with holdTimer := .running 9 } ∧
      (withEntry member 7 .withdraw).slots.entryOf 7 = some { id := 0, kind := .withdraw, tag := 7, purged := false } ∧
      member.slots.entryOf 7 = none) := by decide +kernel

theorem witness_TakeRemovesTheOldestEvents :
    let s (n : Nat) (c : Instr) : State := asked { filled n with cfg := { member.cfg with idleTimeout := 20 } } c
    (∀ c ∈ [Instr.take 0, .take 1, .take 4, .take 5], (s 5 c).asksFor c (requestIn (s 5 c))) ∧
    ((0x00#8).toNat = 0 ∧ 4 < (0x05#8).toNat ∧ 1 ≤ (0x01#8).toNat ∧ (0x04#8).toNat ≤ 4) ∧
    ((s 4 (.take 4)).port.events.drop 4 = [] ∧ (s 5 (.take 4)).port.events.drop 4 ≠ [] ∧
      (s 5 (.take 4)).port.idleFlag = false ∧ (s 5 (.take 4)).cfg.idleTimeout ≠ 0) := by decide +kernel

theorem witness_TallyZeroesAndUnknownOnlyAnswers :
    (asked member (.unknown 0xFF)).asksFor (.unknown 0xFF) (requestIn (asked member (.unknown 0xFF))) ∧
    (asked member .tally).asksFor .tally (requestIn (asked member .tally)) := by decide

/-! #### The line -/

def viewed (v : LineView) : State := { member with line := { LineIf.initial with view := v } }

def beatAttempt : Attempt := { source := .beat, frame := frameOf 6 740 (.beat 0x1234) }

/-- The own BEAT has ended FAULT at its third bit, and the frame goes on. -/
def faultedBeat : State :=
  { hearing member with line := { (hearing member).line with faulted := some { attempt := beatAttempt, bit := 3 } } }

/-- Levels read in SETTLING or STUCK: a gap, all but a gap, a gap broken by a dominant level, more than 64 dominant levels,
64 of them, and the two orders in which a level follows what the view moves at. -/
def idleLevels : List (List Bool) :=
  [List.replicate 11 true, List.replicate 10 true, List.replicate 5 true ++ [false] ++ List.replicate 6 true,
   List.replicate 65 false, List.replicate 64 false, List.replicate 11 true ++ [false], List.replicate 65 false ++ [true]]

theorem witness_LineViewMovesWithTheLine :
    (∀ v ∈ [LineView.settling, .stuck, .quiet], (viewed v).power = .on ∧ (viewed v).line.view = v ∧
      (viewed v).line.tx = .idle ∧ (viewed v).line.quietBits = 0 ∧ (viewed v).line.dominantBits = 0) ∧
    (idleLevels.map fun levels =>
      let l := (viewed .settling).line
      (decide (∀ i : Fin levels.length, l.hasGap (levels.take i.val) → levels[i] = true),
        decide (∀ i : Fin levels.length, l.hasStuck (levels.take i.val) → levels[i] = false),
        decide (l.hasGap levels), decide (l.hasStuck levels))) =
      [(true, true, true, false), (true, true, false, false), (true, true, false, false), (true, true, false, true),
       (true, true, false, false), (false, true, true, false), (true, false, false, true)] ∧
    ((hearing member).receives [false] ∧ endsAtRunOf false ([false] ++ List.replicate 5 false) = true ∧
      (hearing member).line.faulted = none) ∧
    (faultedBeat.receives [false] ∧ faultedBeat.line.faulted = some { attempt := beatAttempt, bit := 3 }) := by
  decide +kernel

/-- Station 6 serving a snapshot of two parts, at the part of this index. -/
def serving (i : Nat) : State :=
  { member with cu := { CatchUp.idle with
      serve := some { requester := 9, base := 739, count := 2, index := i }
      buffer := some { member.capture with records := [recordOf 2 0 none 1 700 none] } } }

/-- One state for each source, with what it chooses. -/
def sourceCases : List (State × Source) :=
  let queued (k : EntryKind) (x : Slot) : State := withEntry (withSlot member 2 x) 2 k
  let behind : State := { member with
    order := { member.order with step := .behind }, cu := { CatchUp.idle with syncreqPending := true } }
  let founding : State := { inStation member .founding with
    order := { member.order with step := .off }
    mem := { member.mem with state := .founding, pendingFound := true } }
  [({ member with mem := { member.mem with pendingLeave := true } }, .leave), (ran (.absenceTimerExpiry 2) member, .evict 2),
   (behind, .syncreq), (founding, .found),
   ({ member with mem := { member.mem with state := .joining, pendingJoin := true } }, .join),
   ({ member with pres := { member.pres with beatPending := true } }, .beat),
   (queued .claim pendingSlot, .queue 0 .claim), (queued .claim { pendingSlot with zones := none }, .queue 0 .claim),
   (queued .release pendingSlot, .queue 0 .release), (queued .withdraw pendingSlot, .queue 0 .withdraw),
   (serving 0, .snap 0), (serving 1, .snap 1)]

theorem witness_AttemptStartFixesACopy :
    (∀ c ∈ sourceCases, c.1.power = .on ∧ c.1.line.view = .quiet ∧ c.1.line.tx = .idle ∧ 11 ≤ c.1.line.quietBits + 0 ∧
      c.1.mem.number = some 6 ∧ c.1.choose = some c.2 ∧ (c.1.sourceBody c.2).isSome = true) ∧
    member.choose = none := by decide +kernel

/-- One state for each clause of the local order. -/
theorem witness_SourcesAreChosenInTheLocalOrder :
    (State.reset.order.step = .off ∧ { member with order := { member.order with step := .behind } }.order.step = .behind ∧
      member.order.step = .inStep) ∧
    ({ member with mem := { member.mem with pendingLeave := true } }.mem.pendingLeave = true ∧
      member.mem.pendingLeave = false ∧ member.mem.state = .member) ∧
    ((ran (.absenceTimerExpiry 2) member).pres.evictFlag 2 = true ∧
      (∀ k : StationNo, (ran (.absenceTimerExpiry 2) member).pres.evictFlag k = true → 2 ≤ k) ∧
      ∀ n : StationNo, member.pres.evictFlag n = false) ∧
    ((withEntry member 0 .withdraw).slots.queue = [{ id := 0, kind := .withdraw, tag := 0, purged := false }] ∧
      (withEntry member 0 .claim).slots.queue = [{ id := 0, kind := .claim, tag := 0, purged := false }] ∧
      member.slots.queue = [] ∧ member.cu.serve = none ∧ member.mem.pendingJoin = false) ∧
    ({ inStation member .joining with
      mem := { member.mem with state := .joining, pendingJoin := true } }.mem.pendingJoin = true) := by decide +kernel

/-- The entry 0 of slot 2, as its attempt is on the line with the start bit read back. -/
def offered (x : Slot) (k : EntryKind) (purged : Bool) : State :=
  let s := withSlot member 2 x
  let b : Body := match k with
    | .claim => claim740.body
    | .release => .release 2
    | .withdraw => .withdraw 2
  reading { s with slots := { s.slots with queue := [{ id := 0, kind := k, tag := 2, purged := purged }] } }
    (entryAttempt k b) 1

/-- The cases in which an own send-queue attempt is not taken. -/
def unsentCases : List (Slot × EntryKind × Bool) :=
  let cancelling : Slot := { waitingSlot with state := .cancelling }
  [(pendingSlot, .claim, true), (pendingSlot, .claim, false), ({ pendingSlot with mark := .releaseAfter }, .claim, false),
   ({ pendingSlot with mark := .cancelAfter }, .claim, false), ({ waitingSlot with state := .releasing }, .release, false),
   (cancelling, .withdraw, false), ({ cancelling with mark := .releaseAfter }, .withdraw, false),
   ({ cancelling with state := .releasing, mark := .releaseAfter }, .withdraw, false), (heldSlot, .withdraw, false)]

/-- The state while an own attempt of this source has ended FAULT. -/
def faultedBy (src : Source) (s : State) : State :=
  { s with line := { s.line with
      faulted := some { attempt := { source := src, frame := frameOf 6 740 .leave }, bit := 3 } } }

/-- A state of each kind for each source: in step with a run below and at 2, and behind with a run and attempts below and at
2; of a send-queue entry each case of `unsentCases`. -/
def faultCases : List (State × Source) :=
  let late (v n : Nat) : State := { member with
    order := { member.order with step := .behind }
    cu := { CatchUp.idle with phase := .requesting, syncreqPending := true, vetoRun := v, attempts := n } }
  let third : State := { member with order := { member.order with ownRun := 2 } }
  ([Source.leave, .join, .beat, .evict 2, .snap 0].flatMap fun src => [(member, src), (third, src), (late 0 0, src)]) ++
    [(member, .found), (member, .syncreq), (late 0 0, .syncreq), (late 2 0, .syncreq), (late 2 2, .syncreq),
     (member, .queue 0 .claim)] ++
    unsentCases.map fun c =>
      ({ withSlot member 2 c.1 with
         slots := { (withSlot member 2 c.1).slots with queue := [{ id := 0, kind := c.2.1, tag := 2, purged := c.2.2 }] } },
       .queue 0 c.2.1)

/-- A FAULT of each source kept over a broken frame, a SNAP, its own remains, and another station's CLAIM, taken and not; and
over the EVICT that ends this station's membership. -/
theorem witness_LostAndFaultedAttempts_kept :
    (∀ c ∈ faultCases,
      let s := faultedBy c.2 (hearing c.1)
      s.receives [false] ∧ s.line.faulted ≠ none ∧
      ∀ w ∈ [Awaiting.snapPart, .ownRemains],
        let t := faultedBy c.2 { c.1 with line := { c.1.line with view := .frame, awaiting := w } }
        t.power = .on ∧ t.line.awaiting = w ∧ (t.line.slotAfter quietSlot).length = 3 ∧ t.line.faulted ≠ none) ∧
    (∀ c ∈ faultCases, ∀ slot ∈ [quietSlot, [true, false, true]],
      let f := frameOf 2 740 (.beat member.fingerprint)
      let s := heard c.1 f .accept
      (faultedBy c.2 s).readsSlot (.good f) .accept slot true true ∨
        (faultedBy c.2 s).readsSlot (.good f) .accept slot false true) ∧
    (∀ c ∈ faultCases, (ran (.frameOutcome quietSlot) (heard c.1 (frameOf 2 740 .syncreq) .veto)).slots = c.1.slots) ∧
    (ran (.frameOutcome quietSlot) (heard member (frameOf 2 740 (.evict 6)) .accept)).mem.state ≠ member.mem.state := by
  decide +kernel

/-- Each case loses at the last recessive bit of station 6's number, and the BEAT at the first of its class; FAULTs at a
dominant bit offered, past the arbitration field, and in the delimiter's last bit. -/
theorem witness_LostAndFaultedAttempts :
    (∀ c ∈ unsentCases, ∃ a ∈ (offered c.1 c.2.1 c.2.2).line.attempt,
      (offered c.1 c.2.1 c.2.2).power = .on ∧ (offered c.1 c.2.1 c.2.2).line.rx = some [false] ∧
      (offered c.1 c.2.1 c.2.2).line.tx = .offering a ∧
      [false] ++ ((a.frame.levels.take 5).drop 1 ++ [false]) = a.frame.levels.take 5 ++ [false] ∧
      a.frame.levels[5]? = some true ∧ 5 < a.frame.arbitration ∧ a.source = .queue 0 c.2.1 ∧
      (offered c.1 c.2.1 c.2.2).slots.queue.find? (fun q => q.id = 0) =
        some { id := 0, kind := c.2.1, tag := 2, purged := c.2.2 } ∧
      (offered c.1 c.2.1 c.2.2).slots.slots[(2 : Tag)] = c.1) ∧
    ((reading member beatAttempt 1).line.tx = .offering beatAttempt ∧ beatAttempt.frame.levels[1]? = some true ∧
      [false] ++ [false] = beatAttempt.frame.levels.take 1 ++ [false] ∧ 1 < beatAttempt.frame.arbitration) ∧
    (let a := entryAttempt .claim claim740.body
     let last := a.frame.levels.length - 1
     [false, true] ++ [true] = a.frame.levels.take 2 ++ [true] ∧ a.frame.levels[2]? = some (!true) ∧
      (reading member a 2).line.tx = .offering a ∧ (reading member a 2).line.rx = some [false, true] ∧
      2 + 1 < a.frame.levels.length ∧
      (reading member a 7).line.tx = .sending a ∧ a.frame.levels[7]? = some (!true) ∧
      (reading member a last).line.tx = .sending a ∧ a.frame.levels[last]? = some (!false) ∧
      last + 1 = a.frame.levels.length) ∧
    (∀ id k, beatAttempt.source ≠ .queue id k) :=
  ⟨by decide +kernel, by decide +kernel, by decide +kernel, nofun⟩

def claimBy2 (q : Seq) : Frame := frameOf 2 q claim740.body

theorem claim_heard_at_740 : (hearing member).hears [false] (restOf (claimBy2 740)) (.good (claimBy2 740)) := by
  decide +kernel

theorem claim_heard_at_741 : (hearing member).hears [false] (restOf (claimBy2 741)) (.good (claimBy2 741)) := by
  decide +kernel

theorem claim_heard_at_739 : (hearing member).hears [false] (restOf (claimBy2 739)) (.good (claimBy2 739)) := by
  decide +kernel

/-- A LEAVE sent with the class of a CLAIM, and with a good check word. -/
def misclassed : List Bool :=
  let covered := [true, false] ++ (frameOf 2 740 .leave).covered.drop 2
  ((stuff (false :: (covered ++ halfBits (checkValue covered)))) ++ false :: List.replicate 6 true).drop 1

theorem misclassed_is_malformed : (hearing member).hears [false] misclassed .malformed := by decide +kernel

/-- Frames at, one after, 32768 after, and one before the expected number; a FOUND; a failed string; a FAULT of which nothing
is left but recessive bits. -/
theorem witness_FrameEndCastsTheVote :
    let s := hearing member
    let found := frameOf 2 740 (.found 0x1234)
    (s.order.step = .inStep ∧ (hearing State.reset).order.step ≠ .inStep ∧ (claimBy2 740).body.kind ≠ .snap) ∧
    ((claimBy2 740).seq = s.order.expected ∧ 1 ≤ ((claimBy2 741).seq - s.order.expected).toNat ∧
      ((740 + 32768 : Seq) - s.order.expected).toNat ≤ 32768 ∧
      32769 ≤ ((claimBy2 739).seq - s.order.expected).toNat) ∧
    s.hears [false] [true, false, true, true, true, true, true, true] .failed ∧
    s.hears [false] (restOf found) (.good found) ∧ (hearing State.reset).hears [false] (restOf found) (.good found) ∧
    (let t := { s with line := { s.line with faulted := some { attempt := beatAttempt, bit := 1 } } }
     t.receives [false] ∧ endsAtRunOf true ([false] ++ List.replicate 6 true) = true ∧
      false ∉ ([false] ++ List.replicate 6 true).drop 1) := by
  decide +kernel

/-- The member with this serve, this serve list and a SYNCREQ of station `r`. -/
def requested (r : StationNo) (v : Option StationNo) (list : List StationNo) : State :=
  heard { member with cu := { member.cu with
    serve := v.map fun x => { requester := x, base := 700, count := 1, index := 0 }, serveList := list } }
    (frameOf r 740 .syncreq) .accept

/-- A peer's frame of each kind; a SYNCREQ at the named server, station 6, from station 2 and at another station, from
station 9: with no serve, with its own, and behind a serve list that is empty, lists it, or is full. -/
theorem witness_PeerFrameTakenIsApplied :
    (∀ c ∈ ([(2, none, []), (9, none, []), (2, some 2, [3]), (2, some 3, []), (2, some 3, [4, 2]), (2, some 3, [4, 5, 7, 8]),
        (2, none, [4])] : List (StationNo × Option StationNo × List StationNo)),
      let s := requested c.1 c.2.1 c.2.2
      let f := frameOf c.1 740 .syncreq
      s.readsSlot (.good f) .accept quietSlot true true ∧ s.line.faulted = none ∧ s.order.step = .inStep ∧
        s.mem.number = some 6 ∧ f.sender ≠ 6 ∧ (∃ n, s.roster.isMember n = true ∧ n ≠ f.sender) ∧
        s.roster.isMember 6 = true ∧
        ((∀ n, s.roster.isMember n = true → n ≠ f.sender → (6 : StationNo) ≤ n) ↔ c.1 = 2)) ∧
    (∀ b ∈ [claim740.body, .release 3, .withdraw 3, .beat member.fingerprint, .beat (member.fingerprint + 1)],
      let f := frameOf 2 740 b
      let s := heard member f .accept
      s.readsSlot (.good f) .accept quietSlot true true ∧ s.line.faulted = none ∧ s.order.step = .inStep ∧
        s.mem.number ≠ some f.sender ∧ s.roster.isMember f.sender = true ∧ s.pres.absence[f.sender] ≠ .stopped ∧
        s.fingerprint = member.fingerprint ∧
        (f.body.kind = .claim ∨ f.body.kind = .release ∨ f.body.kind = .withdraw ∨ f.body.kind = .beat)) ∧
    member.roster.reference = some 2 := by decide +kernel

theorem witness_VetoedFrameIsNotApplied :
    let f := claimBy2 741
    let s (v : Vote) (run : Nat) := { heard member f v with order := { member.order with rxRun := run } }
    ((s .veto 8).line.slot = [] ∧ (s .veto 8).line.tx = .idle) ∧
    (s .acceptLater 0).readsSlot (.good f) .acceptLater [true, false, true] false true ∧
    (s .acceptLater 0).readsSlot (.good f) .acceptLater [true, true, false] true false ∧
    (s .acceptLater 0).line.faulted = none ∧ (s .veto 8).readsSlot (.good f) .veto quietSlot false false ∧
    8 ≤ (s .veto 8).order.rxRun ∧ (s .veto 7).order.rxRun < 8 ∧ (s .veto 8).order.step = .inStep ∧
    (member.roster.isMember 2 = true ∧ member.mem.number ≠ some 2 ∧ member.pres.absence[(2 : StationNo)] ≠ .stopped ∧
      (ran (.absenceTimerExpiry 2) member).pres.absence[(2 : StationNo)] = .expired) := by decide

/-- A vetoed good frame and a failed one, at a LISTENING station. -/
theorem witness_VetoedFrameIsNotApplied_listening :
    let s (r : Received) : State := { heard member claim740 .abstain with
      order := { member.order with step := .off }
      mem := { member.mem with state := .listening, listen := .running 9 }
      line := { (heard member claim740 .abstain).line with awaiting := .heard r .abstain } }
    ∀ r ∈ [Received.good (claimBy2 741), .failed, .malformed],
      (s r).readsSlot r .abstain [true, false, true] false true ∧ (s r).line.faulted = none ∧
        (s r).mem.listen ≠ .stopped := by decide

/-- Stations 2, 6 and 9 in step at 740, none of which has a record. -/
def trio : State :=
  ran (.frameOutcome quietSlot) (heard { member with order := { member.order with expected := 739 } }
    (frameOf 9 739 (.join 0x1234)) .accept)

/-- The member of station state `st`, with slot 2 held, in a group of these stations alone. -/
def amid (st : StationState) (group : List StationNo) : State :=
  { inStation (withSlot member 2 heldSlot) st with
    roster := { (group.foldl (fun r n => r.add n 700) Roster.empty) with digest := some 0x1234#16 } }

/-- The frames that dissolve a group: of station 2 alone, by its LEAVE, a refused JOIN, an EVICT by another, and its
SYNCREQ; of this station alone, by another's EVICT in each station state. -/
theorem witness_MembershipFramesMoveTheRoster_dissolution :
    (∀ c ∈ [((2 : StationNo), frameOf 2 740 .leave), (2, frameOf 2 740 (.join 5)), (2, frameOf 3 740 (.evict 2)),
        (2, frameOf 2 740 .syncreq), (6, frameOf 3 740 (.evict 6))],
      ∀ st ∈ [StationState.joining, .member, .leaving],
      let s := heard (amid st [c.1]) c.2 .accept
      s.readsSlot (.good c.2) .accept quietSlot true true ∧ s.line.faulted = none ∧ s.order.step = .inStep ∧
        s.mem.number ≠ some c.2.sender ∧ s.mem.state = st ∧ ∀ n : StationNo, s.roster.isMember n = true ↔ n = c.1) ∧
    (amid .member [2]).roster.digest ≠ some 5 ∧ (3 : StationNo) ≠ 2 ∧ (amid .joining [6]).mem.number = some 6 := by
  decide +kernel

/-- A frame of each kind that bears number 6 and was not sent here: in a group that lists 6 and in one that does not. -/
theorem witness_MembershipFramesMoveTheRoster_twin :
    (∀ b ∈ [claim740.body, .release 3, .withdraw 3, .beat member.fingerprint, .beat (member.fingerprint + 1), .syncreq,
        .leave, .evict 6, .evict 3, .evict 2, .join 0x1234, .join 5],
      let f := frameOf 6 740 b
      ∀ st ∈ [StationState.joining, .member, .leaving],
      let s := heard (amid st [2, 6]) f .accept
      s.readsSlot (.good f) .accept quietSlot true true ∧ s.line.faulted = none ∧ s.order.step = .inStep ∧
        s.mem.number = some f.sender ∧ s.roster.isMember 2 = true ∧ (2 : StationNo) ≠ f.sender ∧
        s.roster.isMember 6 = true ∧ s.mem.state = st ∧ s.fingerprint = (amid st [2, 6]).fingerprint ∧
        ((∀ g ∈ (s.table.apply s.cfg s.roster.isMember f).2.grants, g.1 ≠ 6) ∨ b = claim740.body) ∧
        ∀ r ∈ (s.table.apply s.cfg s.roster.isMember f).2.removed, r.owner ≠ 6) ∧
    (amid .member [2]).roster.isMember 6 = false ∧ (amid .member [2, 3]).roster.isMember 3 = true ∧
    (∀ k : Tag, (({ amid .joining [2, 6] with slots := SlotUnit.initial } : State).slots.slots[k]).state = .free) := by
  decide +kernel

/-- A peer's JOIN with the group's digest and with another, by a station that is not listed and by one that is; its LEAVE;
its EVICT of a station that is not listed, of itself, of no station, of station 9 and of this one. -/
theorem witness_MembershipFramesMoveTheRoster :
    (∀ f ∈ [frameOf 3 740 (.join 0x1234), frameOf 9 740 (.join 0x1234), frameOf 3 740 (.join 5), frameOf 9 740 (.join 5),
        frameOf 3 740 .leave, frameOf 9 740 .leave, frameOf 2 740 (.evict 3), frameOf 2 740 (.evict 2),
        frameOf 2 740 (.evict 16), frameOf 2 740 (.evict 9), frameOf 2 740 (.evict 6)],
      let s := heard trio f .accept
      s.readsSlot (.good f) .accept quietSlot true true ∧ s.line.faulted = none ∧ s.order.step = .inStep ∧
        s.mem.number ≠ some f.sender ∧ ¬ ∃ g ∈ (s.table.apply s.cfg s.roster.isMember f).2.grants, s.mem.number = some g.1) ∧
    (∀ st ∈ [StationState.joining, .member, .leaving], (inStation trio st).mem.state = st ∧
      ∀ k : Tag, ((inStation trio st).slots.slots[k]).state = .free) ∧
    (trio.roster.digest = some 0x1234#16 ∧ trio.roster.word = 0x0244#16 ∧ trio.mem.number = some 6 ∧
      trio.mem.state = .member) ∧
    (let own (src : Source) (b : Body) (st : StationState) : State :=
       onLine (inStation member st) { source := src, frame := frameOf 6 740 b }
     (∀ k : Tag, (member.slots.slots[k]).state = .free) ∧
      (∀ c ∈ [(Source.leave, Body.leave, StationState.leaving), (.join, .join 0x1234, .joining), (.join, .join 5, .joining)],
        (own c.1 c.2.1 c.2.2).completes { source := c.1, frame := frameOf 6 740 c.2.1 } [true, true] true true ∧
        (own c.1 c.2.1 c.2.2).order.step = .inStep ∧ (own c.1 c.2.1 c.2.2).mem.number = some 6 ∧
        (own c.1 c.2.1 c.2.2).mem.state = c.2.2)) := by decide +kernel

def listening : State :=
  { State.reset with mem := { State.reset.mem with state := .listening, number := some 9, listen := .running 40, locked := true } }

/-- The member behind, with this hold-back queue and this last number heard. -/
def lagging (st : StationState) (q : List Held) (last : Option Seq) : State :=
  { inStation member st with
    order := { member.order with step := .behind, lastHeard := last }
    cu := { CatchUp.idle with phase := .requesting, syncreqPending := true, holdBack := q } }

/-- A FOUND and a CLAIM, at a LISTENING and a FOUNDING station and at stations that are behind; a hold-back queue that is
empty, has the frame before, 15 and 16 frames, the same frame, and one 32768 away; case 5 in step. -/
theorem witness_ListeningStationFollowsATakenFrame :
    (∀ f ∈ [frameOf 3 740 (.found 0x1234), claimBy2 740],
      (∀ s ∈ [listening, inStation listening .founding, lagging .joining [] none, lagging .member [] (some 739),
          lagging .leaving [] (some 739)],
        (heard s f .abstain).readsSlot (.good f) .abstain quietSlot true true ∧
        (heard s f .abstain).line.faulted = none ∧ s.mem.number ≠ some f.sender) ∧
      (heard member f .acceptLater).readsSlot (.good f) .acceptLater quietSlot true true) ∧
    (listening.order.step = .off ∧ (lagging .member [] none).order.step = .behind ∧ member.order.step = .inStep ∧
      ∀ k : Tag, (member.slots.slots[k]).state = .free) ∧
    (let q (n last : Nat) : List Held := ((List.range n).map fun i => kept (last + 1 + i - n))
     let ahead (x : List Held) : Option Nat := x.getLast?.map fun h => ((claimBy2 740).seq - h.frame.seq).toNat
     (∀ n ∈ [15, 16], ahead (q n 739) = some 1 ∧ (lagging .member (q n 739) (some 739)).cu.holdBack.length = n) ∧
      ahead (q 1 740) = some 0 ∧ ahead (q 1 (740 + 32768)) = some 32768 ∧ ahead (q 1 (740 + 32769)) = some 32767) := by
  decide +kernel

/-- A FOUND of the own number at each station that adopts one; a taken frame where none is followed, and a failed and a
malformed one at stations that gave no vote. -/
theorem witness_ListeningStationFollowsATakenFrame_ownNumber :
    (∀ s ∈ [listening, inStation listening .founding, lagging .joining [] none, lagging .member [] (some 739),
        lagging .leaving [] (some 739)],
      let f := frameOf 6 740 (.found 0x1234)
      let t : State := { s with mem := { s.mem with number := some 6 } }
      (heard t f .abstain).readsSlot (.good f) .abstain quietSlot true true ∧ (heard t f .abstain).line.faulted = none ∧
        t.mem.number = some f.sender) ∧
    (∀ st ∈ [StationState.idle, .detached, .refused, .isolated],
      let s := inStation listening st
      (heard s (claimBy2 740) .abstain).readsSlot (.good (claimBy2 740)) .abstain quietSlot true true ∧
        s.order.step = .off ∧ s.mem.state = st ∧ s.roster.isMember 2 = false) ∧
    (∀ s ∈ [listening, lagging .member [] (some 739)], ∀ r ∈ [Received.failed, .malformed],
      let t : State := { s with line := { s.line with view := .frame, awaiting := .heard r .abstain } }
      t.readsSlot r .abstain quietSlot true true ∧ t.line.faulted = none ∧ t.order.step ≠ .inStep) := by decide

theorem witness_OwnVetoCountsTowardsBehind :
    (∀ b ∈ [(false, true), (true, false), (false, false)], (onLine member beatAttempt).completes beatAttempt
      [b.1, b.2] b.1 b.2) ∧
    (beatAttempt.source = .beat ∧ beatAttempt.frame.body.kind ≠ .snap ∧ (onLine member beatAttempt).order.step = .inStep ∧
      { member.order with ownRun := 2 }.ownRun = 2) ∧
    (∀ c ∈ unsentCases.drop 1, ∃ a ∈ (offered c.1 c.2.1 c.2.2).line.attempt,
      let s := onLine (offered c.1 c.2.1 c.2.2) a
      s.completes a [false, true] false true ∧ a.frame.body.kind ≠ .snap ∧ s.order.step = .inStep ∧
      a.source = .queue 0 c.2.1 ∧
      s.slots.queue.find? (fun q => q.id = 0) = some { id := 0, kind := c.2.1, tag := 2, purged := false } ∧
      s.slots.slots[(2 : Tag)] = c.1) ∧
    (let found : Attempt := { source := .found, frame := frameOf 9 0 (.found 0x1234) }
     (onLine (inStation listening .founding) found).completes found [false, true] false true ∧
      listening.order.step = .off) ∧
    (let sync : Attempt := { source := .syncreq, frame := frameOf 6 740 .syncreq }
     let s := onLine (lagging .member [] (some 739)) sync
     s.completes sync [false, true] false true ∧ s.order.step = .behind ∧ s.cu.vetoRun < 2 ∧ s.cu.attempts < 2 ∧
      2 ≤ { s.cu with vetoRun := 2, attempts := 2 }.vetoRun) := by decide +kernel

/-- The table is empty, or already holds zone 4 for station 2, or the tag's record stands, or the claim names zone 5 of 5
zones, or the table is full; under each mark. -/
theorem witness_OwnClaimTakenSettlesItsSlot :
    let e : Entry := { id := 0, kind := .claim, tag := 2, purged := false }
    let a := entryAttempt .claim claim740.body
    let four : Table := { Table.empty with
      records := [recordOf 2 0 (some ⟨4, 4⟩) 0 700 (some 700)], zoneMap := Table.empty.zoneMap.set 4 (some (2, 0)) }
    let report (t : Table) (c : Cfg) := (t.apply c member.roster.isMember a.frame).2
    (∀ m ∈ [Mark.none, .releaseAfter, .cancelAfter],
      let s := onLine (withEntry (withSlot member 2 { pendingSlot with mark := m }) 2 .claim) a
      s.completes a [true, true] true true ∧ s.order.step = .inStep ∧ s.mem.state = .member ∧ s.mem.number = some 6 ∧
      s.roster.isMember 6 = true ∧ a.source = .queue e.id .claim ∧
      s.slots.queue.find? (fun q => q.id = e.id) = some e ∧ e.purged = false ∧ a.frame.sender = 6 ∧
      a.frame.body = .claim (byteOf e.tag.val) true 4 5 0 ∧ (s.slots.slots[e.tag]).state = .pending ∧
      (s.slots.slots[e.tag]).mark = m) ∧
    ((report Table.empty member.cfg).claim = some .admitted ∧
      (report Table.empty member.cfg).grants = [((6 : StationNo), e.tag)]) ∧
    ((report four member.cfg).claim = some .admitted ∧ (report four member.cfg).grants = []) ∧
    (report { four with records := [recordOf 6 2 none 1 700 none] } member.cfg).claim = some (.refused .duplicate) ∧
    (report Table.empty { member.cfg with zoneCount := 5 }).claim = some (.refused .range) ∧
    (report { four with records := List.replicate 48 (recordOf 2 0 none 1 700 none) } member.cfg).claim =
      some (.refused .full) := by decide +kernel

theorem witness_OwnFoundAndSyncreqTaken :
    let found : Attempt := { source := .found, frame := frameOf 9 0 (.found 0x1234) }
    let sync : Attempt := { source := .syncreq, frame := frameOf 6 745 .syncreq }
    let f := onLine (inStation listening .founding) found
    let b := onLine { member with order := { member.order with step := .behind } } sync
    (f.completes found [true, true] true true ∧ f.order.step = .off ∧ f.mem.state = .founding ∧ f.mem.number = some 9 ∧
      found.source = .found ∧ found.frame.body = .found 0x1234) ∧
    (b.completes sync [true, true] true true ∧ b.order.step = .behind ∧ sync.source = .syncreq ∧
      sync.frame.body = .syncreq ∧ b.mem.state = .member) := by decide +kernel

/-- A serve of two parts at its first and at its last part, with and without a request behind it. -/
theorem witness_SnapSentAdvancesTheServe :
    let a (i : Nat) : Attempt := { source := .snap i, frame := frameOf 6 739 (.snapHeader 9 2 0 0 0 0 []) }
    let v (i : Nat) : Serve := { requester := 9, base := 739, count := 2, index := i }
    let s (i : Nat) (l : List StationNo) := onLine { member with cu := { CatchUp.idle with
      serve := some (v i), serveList := l, buffer := some member.capture } } (a i)
    (∀ i ∈ [0, 1], (s i []).completes (a i) [false, true] false true ∧ (a i).frame.body.kind = .snap ∧
      (s i []).cu.serve = some (v i)) ∧
    ((v 0).index + 1 < (v 0).count ∧ (v 1).count ≤ (v 1).index + 1) ∧
    ((s 1 []).cu.serveList = [] ∧ (s 1 [3]).cu.serveList = [3]) := by decide +kernel

/-- The header of a snapshot at 739 by station 2, with this digest, of these members. -/
def header (target count : Byte) (digest members fp : Half) : Frame :=
  frameOf 2 739 (.snapHeader target count digest members 0 fp (List.replicate (memberCount members) 739))

/-- A record part of station 2's snapshot. -/
def recordPart (target index count : Byte) : Frame :=
  frameOf 2 739 (.snapRecord target index count (Record.toPart (recordOf 2 0 none 1 700 none)))

/-- The snapshot that such a header began, of members 2 and 6. -/
def received (count : Nat) : Snapshot where
  sender := 2
  base := 739
  count := count
  digest := 0x1234
  members := 0x0044
  inUse := 0
  fingerprint := fingerprintOf (some 0x1234) 0x0044 0 [recordOf 2 0 none 1 700 none]
  lastTaken := [739, 739]
  records := []
  next := 1

/-- Station 6 behind in this station state and phase, with its SYNCREQ held back, hearing a frame. -/
def behind (st : StationState) (p : Phase) : State :=
  { inStation (hearing member) st with
    order := { member.order with step := .behind }
    cu := { CatchUp.idle with
      phase := p, wait := .running 400, snapshot := some (received 2)
      holdBack := [{ frame := frameOf 6 739 .syncreq, own := true }] } }

/-- Headers: for station 3, of two parts, of another digest, without members, of station 2 alone and of both; record parts:
for station 3, in turn, and out of turn. -/
def snapParts : List Frame :=
  let fp (m : Half) := fingerprintOf (some 0x1234) m 0 []
  [header 3 1 0x1234 4 (fp 4), header 6 2 0x1234 4 (fp 4), header 6 1 5 4 (fp 4), header 6 1 0x1234 0 (fp 0),
   header 6 1 0x1234 4 (fp 4), header 6 1 0x1234 0x44 (fp 0x44), recordPart 3 1 2, recordPart 6 1 2, recordPart 6 2 3]

theorem snapParts_heard : ∀ f ∈ snapParts, (behind .member .awaiting).hears [false] (restOf f) (.good f) := by
  decide +kernel

/-- The state once this table has been installed and the frames after the base have been applied. -/
def replayed (s : State) (sn : Snapshot) (table : Table) : State :=
  (s.cu.holdBack.filter fun h =>
      decide (1 ≤ (h.frame.seq - sn.base).toNat ∧ (h.frame.seq - sn.base).toNat ≤ 32768)).foldl
    (fun v h => if v.order.step = .inStep then v.applyFrame false h.own none h.frame else v)
    { s with
      line := { s.line with rx := none, awaiting := .snapPart, slot := [] }
      cu := { s.cu with phase := .receiving, wait := .running (s.cfg.absenceLimit * s.cfg.beatInterval), snapshot := some sn }
      table := table
      roster := { members := membersOfHeader sn.members sn.lastTaken, digest := some sn.digest }
      order := { step := .inStep, expected := sn.base + 1, lastHeard := s.order.lastHeard, rxRun := 0, ownRun := 0
                 ownRunOf := none }
      pres := { s.pres with absence := Vector.ofFn fun n =>
        if sn.members.toNat.testBit n.val = true ∧ n ≠ 6 then .running (s.cfg.absenceLimit * s.cfg.beatInterval)
        else .stopped } }

/-- The station behind, waiting for parts, with this frame held back after the base too. -/
def heldOn (st : StationState) (f : Frame) : State :=
  let s := behind st .awaiting
  { s with
    order := { s.order with lastHeard := some f.seq }
    cu := { s.cu with holdBack := s.cu.holdBack ++ [{ frame := f, own := false }] } }

/-- Station 2's snapshot of these members, with no record. -/
def snapshotOf (m : Half) : Snapshot :=
  { received 1 with members := m, fingerprint := fingerprintOf (some 0x1234) m 0 [] }

/-- The step state, the station state, this station's membership and the frame expected, once that snapshot is replayed. -/
def replayOf (s : State) (m : Half) : StepState × StationState × Bool × Seq :=
  let u := replayed s (snapshotOf m) Table.empty
  (u.order.step, u.mem.state, u.roster.isMember 6, u.order.expected)

/-- Installs that list this station or do not, with nothing held back after the base, with a CLAIM, and with the LEAVE that
dissolves the group. -/
theorem witness_SnapshotHeaderIsStoredOrInstalled_heldBack :
    (∀ st ∈ [StationState.joining, .member, .leaving],
      replayOf (behind st .awaiting) 0x44 = (.inStep, st, true, 740) ∧
      replayOf (heldOn st (claimBy2 740)) 0x44 = (.inStep, st, true, 741) ∧
      replayOf (behind st .awaiting) 4 = (.inStep, st, false, 740) ∧
      replayOf (heldOn st (claimBy2 740)) 4 = (.inStep, st, false, 741)) ∧
    (replayOf (heldOn .member (frameOf 2 740 .leave)) 4).1 = .off ∧
    (candidate (heldOn .member (claimBy2 740)).cfg (snapshotOf 4)).isSome = true := by
  decide +kernel

/-- The run with one frame held back after the base. -/
theorem witness_SnapshotHeaderIsStoredOrInstalled_run :
    ((heldOn .member (claimBy2 740)).order.lastHeard.getD 0 - 739).toNat = 1 ∧
    (heldOn .member (claimBy2 740)).cu.holdBack.any (fun h => decide (h.frame.seq = (739 : Seq) + 1)) = true := by
  decide +kernel

/-- Frames that a station could hold back, each taken live by one that stays in step; and the SYNCREQ of the only member. -/
theorem witness_SnapshotHeaderIsStoredOrInstalled_live :
    (∀ b ∈ [claim740.body, .leave, .join 5, .beat 0, .syncreq], ∀ n ∈ [(2 : StationNo), 6],
      let f := frameOf n 740 b
      let s := heard (amid .member [2, 6]) f .accept
      s.readsSlot (.good f) .accept quietSlot true true ∧ s.line.faulted = none ∧ s.line.tx = .idle ∧
        s.order.step = .inStep ∧ ∃ k, s.roster.isMember k = true ∧ k ≠ f.sender) ∧
    (∀ n : StationNo, (amid .member [2]).roster.isMember n = true → n = (frameOf 2 740 .syncreq).sender) := by
  decide +kernel

/-- The phases and station states, the run with a gap and without, the candidate refused and accepted, the own number listed
and not. What `hears` asks is the same in each state; `snapParts_heard` shows it of each frame. -/
theorem witness_SnapshotHeaderIsStoredOrInstalled :
    let s := behind .member .awaiting
    let sn (m : Half) : Snapshot :=
      { received 1 with members := m, fingerprint := fingerprintOf (some 0x1234) m 0 [] }
    let late : Seq := s.order.lastHeard.getD 0 - 2
    (s.mem.number = some 6 ∧ (0x03#8).toNat ≠ 6 ∧ (0x06#8).toNat = 6 ∧ s.cu.phase = .awaiting ∧
      (behind .member .requesting).cu.phase = .requesting ∧ (behind .member .receiving).cu.phase = .receiving ∧
      (behind .member .receiving).cu.snapshot = some (received 2)) ∧
    (s.cu.attempts < 2 ∧ 2 ≤ { s.cu with attempts := 2 }.attempts ∧ s.order.lastHeard = some 739) ∧
    (0x0005#16 ≠ s.mem.ownDigest ∧ 0x1234#16 = s.mem.ownDigest ∧ (739 - late).toNat = 2 ∧
      ∀ h ∈ s.cu.holdBack, h.frame.seq ≠ late + BitVec.ofNat 16 1) ∧
    (candidate s.cfg (sn 0) = none ∧ candidate s.cfg (sn 4) = some Table.empty ∧
      candidate s.cfg (sn 0x44) = some Table.empty ∧ (0x0044#16).toNat.testBit 6 = true ∧
      (0x0004#16).toNat.testBit 6 = false) ∧
    (((behind .joining .awaiting).mem.state, (behind .leaving .awaiting).mem.state) = (.joining, .leaving)) ∧
    ((received 2).sender = 2 ∧ (received 2).next = 1 ∧ (received 2).next + 1 = (received 2).count ∧
      (received 3).next + 1 ≠ (received 3).count ∧ { received 2 with sender := 3 }.sender ≠ 2 ∧
      (candidate s.cfg { received 2 with
        records := [Record.toPart (recordOf 2 0 none 1 700 none)], next := 2 }).isSome = true) := by
  decide +kernel

theorem witness_OwnReleaseWithdrawAndGrantSettleTheSlot :
    let e (k : EntryKind) : Entry := { id := 0, kind := k, tag := 2, purged := false }
    let s (x : Slot) (k : EntryKind) (b : Body) := onLine (withEntry (withSlot member 2 x) 2 k) (entryAttempt k b)
    let rel := s { waitingSlot with state := .releasing, cause := some .host } .release (.release 2)
    let wd (x : Slot) := s x .withdraw (.withdraw 2)
    let mine (g : Option Seq) : Table := Table.ofRecords [recordOf 6 2 (some ⟨4, 5⟩) 0 730 g]
    let tagOf (t : Table) := (t.apply member.cfg member.roster.isMember (frameOf 6 740 (.withdraw 2))).2.tag
    (rel.completes (entryAttempt .release (.release 2)) [true, true] true true ∧ rel.order.step = .inStep ∧
      rel.mem.number = some 6 ∧ rel.roster.isMember 6 = true ∧
      rel.slots.queue.find? (fun q => q.id = 0) = some (e .release) ∧
      (entryAttempt .release (.release 2)).frame.sender = 6) ∧
    (∀ c ∈ unsentCases.drop 5, (wd c.1).completes (entryAttempt .withdraw (.withdraw 2)) [true, true] true true ∧
      (wd c.1).slots.queue.find? (fun q => q.id = 0) = some (e .withdraw) ∧ (wd c.1).slots.slots[(2 : Tag)] = c.1) ∧
    ((unsentCases.drop 5).map fun c => (c.1.state, c.1.mark)) =
      [(.cancelling, .none), (.cancelling, .releaseAfter), (.releasing, .releaseAfter), (.held, .none)] ∧
    (tagOf (mine none) = some .removed ∧ tagOf Table.empty = some .absent ∧ tagOf (mine (some 731)) = some .stillHeld) ∧ (mine none).ok member.cfg := by
  decide +kernel

/-- This station's claims on zones 4 and 6, tags 2 and 3, wait behind station 2's hold of zones 4..6; a trio of stations. -/
def waitingTwice (st : SlotState) : State :=
  { withSlot (withSlot trio 2 { waitingSlot with state := st }) 3 { waitingSlot with zones := some ⟨6, 6⟩ } with
    order := member.order
    cfg := member.cfg
    table := Table.ofRecords
      [recordOf 2 0 (some ⟨4, 6⟩) 0 700 (some 700), recordOf 6 2 (some ⟨4, 5⟩) 0 730 none,
       recordOf 6 3 (some ⟨6, 6⟩) 0 731 none] }

/-- Frames of each kind that end station 2's hold, and so grant both own records; one of the two slots in each state, its
WITHDRAW on the line or not; and the own EVICT of station 2. -/
theorem witness_OwnReleaseWithdrawAndGrantSettleTheSlot_granted :
    (∀ f ∈ [frameOf 2 740 (.release 0), frameOf 2 740 .leave, frameOf 2 740 (.join 0x1234), frameOf 2 740 (.join 5),
        frameOf 9 740 (.evict 2)], ∀ st ∈ [SlotState.waiting, .cancelling, .releasing],
      let s := heard (waitingTwice st) f .accept
      s.readsSlot (.good f) .accept quietSlot true true ∧ s.order.step = .inStep ∧ s.mem.number = some 6 ∧
        s.mem.state = .member ∧ s.table.ok s.cfg ∧ (ran (.frameOutcome quietSlot) s).mem.state = .member ∧
        (s.table.apply s.cfg s.roster.isMember f).2.grants = [(6, 2), (6, 3)] ∧ s.line.faulted = none ∧
        (faultedBy (.queue 0 .withdraw) (withEntry s 2 .withdraw)).slotOnLine 2 = true) ∧
    (let a : Attempt := { source := .evict 2, frame := frameOf 6 740 (.evict 2) }
     let s := onLine (waitingTwice .waiting) a
     s.completes a [true, true] true true ∧ s.roster.isMember 2 = true ∧ s.roster.isMember 9 = true ∧
      s.table.ok s.cfg ∧ (s.table.apply s.cfg s.roster.isMember a.frame).2.grants = [(6, 2), (6, 3)]) := by
  decide +kernel

/-- A RELEASE and a WITHDRAW of the own number, not sent here, that remove the record of a slot in each state. -/
theorem witness_OwnReleaseWithdrawAndGrantSettleTheSlot_removed :
    ∀ f ∈ [frameOf 6 740 (.release 2), frameOf 6 740 (.withdraw 2)],
      ∀ st ∈ [SlotState.waiting, .held, .cancelling, .releasing, .pending, .free],
      let s := heard (waitingTwice st) f .accept
      s.readsSlot (.good f) .accept quietSlot true true ∧ s.table.ok s.cfg ∧
        (s.table.apply s.cfg s.roster.isMember f).2.removed = [recordOf 6 2 (some ⟨4, 5⟩) 0 730 none] ∧
        (ran (.frameOutcome quietSlot) s).mem.state = s.mem.state ∧ (s.slots.slots[(2 : Tag)]).state = st := by
  decide +kernel

/-! #### Timers, zone lines, table, events -/

theorem witness_ListenBeatAbsenceAndIdleTimersExpire :
    let late := { listening with mem := { listening.mem with listen := .running 1 } }
    let idle := { member with port := { member.port with events := [{ kind := .lineClear }], idleTimer := .running 1 } }
    (late.power = .on ∧ late.mem.listen = .running 1 ∧ late.mem.state = .listening) ∧ member.pres.beat = .running 50 ∧
    (member.pres.absence[(2 : StationNo)] = .running 300 ∧ member.mem.state = .member ∧ member.order.step = .inStep ∧
      ¬ ((inStation member .joining).mem.state = .member)) ∧ idle.port.idleTimer = .running 1 := by decide

theorem witness_CatchupWaitExpiryFailsTheAttempt :
    let s := behind .joining .awaiting
    s.power = .on ∧ s.cu.wait = .running 400 ∧ s.cu.attempts < 2 ∧
    2 ≤ { s.cu with attempts := 2 }.attempts ∧ ∀ k : Tag, (s.slots.slots[k]).state = .free := by decide

theorem witness_HoldAndHostCheckExpiriesGiveUpSlots :
    let held := withSlot member 0 { heldSlot with holdTimer := .running 1 }
    let check := { held with slots := { held.slots with hostCheck := .running 1 } }
    (held.power = .on ∧ (held.slots.slots[(0 : Tag)]).state = .held ∧
      (held.slots.slots[(0 : Tag)]).holdTimer = .running 1 ∧ held.slots.entryOf 0 = none ∧
      (withEntry held 0 .withdraw).slots.entryOf 0 ≠ none) ∧
    (check.power = .on ∧ check.slots.hostCheck = .running 1 ∧ ∀ k : Tag, (check.slots.slots[k]).state ≠ .pending) := by
  decide

theorem witness_ReleaseInputsAreQualifiedAndActOnce :
    let s := limitSwitch
    let q := { s with zl := { s.zl with qual := s.zl.qual.set 1 (.running 1) } }
    let edge (z : Nat) := { s with zl := { s.zl with edges := [z] } }
    (s.power = .on ∧ (s.cfg.lines[(1 : LineNo)]).mode = .releaseIn ∧ s.zl.pinIn[(1 : LineNo)] ≠ false ∧
      s.zl.settled[(1 : LineNo)] ≠ false ∧ s.zl.qual[(1 : LineNo)] = .stopped ∧
      (s.cfg.lines[(0 : LineNo)]).mode ≠ .releaseIn) ∧
    ({ s with zl := { s.zl with pinIn := s.zl.pinIn.set 1 false } }.zl.settled[(1 : LineNo)] = true) ∧
    q.zl.qual[(1 : LineNo)] = .running 1 ∧
    (31 ∈ (edge 31).zl.edges ∧ 5 ∈ (edge 5).zl.edges ∧ (s.slots.slots[(0 : Tag)]).state = .held ∧
      (s.slots.slots[(0 : Tag)]).zones = some { lo := 4, hi := 5 } ∧ s.slots.entryOf 0 = none ∧
      ∀ k : Tag, (s.slots.slots[k]).state = .held → 0 ≤ k) := by decide

theorem witness_ZoneLinesShowWhatTheStationHolds :
    let line (m : LineMode) (p : Polarity) : State := { member with
      cfg := { member.cfg with lines := member.cfg.lines.set 0 { mode := m, zone := 0, polarity := p } } }
    ((limitSwitch.cfg.lines[(0 : LineNo)]).mode = .grantOut ∧ limitSwitch.lineAsserted 0 = some true ∧
      (limitSwitch.cfg.lines[(1 : LineNo)]).mode = .releaseIn) ∧
    (((line .memberOut .low).cfg.lines[(0 : LineNo)]).mode = .memberOut ∧
      (line .memberOut .low).lineAsserted 0 = some true ∧ (line .grantOut .low).lineAsserted 0 = some false) ∧
    limitSwitch.power = .on := by decide

/-- One claim for each case, at the bounds: zone 7 of 8, tag 8, units 10 and 11 of 10, a full table. -/
theorem witness_ClaimIsAdmittedByTheFirstCase :
    let out (t : Table) (m : Bool) (o : StationNo) (b : Body) :=
      (t.apply cfg410 (fun _ => m) (frameOf o 412 b)).2.claim
    let eight : Table := { table410 with records := (List.finRange 8).map fun t => recordOf 3 t none 1 400 none }
    out table410 false 3 (.claim 0 true 7 7 10) = some .ignored ∧
    out table410 true 5 (.claim 0 true 7 7 10) = some (.refused .duplicate) ∧
    out table410 true 3 (.claim 8 true 7 7 10) = some (.refused .range) ∧
    out table410 true 3 (.claim 7 true 7 7 11) = some (.refused .range) ∧
    out table410 true 3 (.claim 7 false 255 255 0) = some (.refused .range) ∧
    out eight true 3 (.claim 7 true 7 7 0) = some (.refused .duplicate) ∧
    out { eight with records := eight.records ++ eight.records.map (fun r => { r with owner := 4 }) ++
        List.replicate 32 (recordOf 9 0 none 1 400 none) } true 6 (.claim 7 true 7 7 0) = some (.refused .full) ∧
    out table410 true 3 (.claim 7 true 7 7 10) = some .admitted := by decide +kernel

/-- The table of 1.4: records that a RELEASE, a WITHDRAW, a LEAVE, a JOIN and an EVICT name, and none. -/
theorem witness_RemovalsActByTheirRules :
    let rs := table410.records
    let named (o : StationNo) (tag : Byte) (r : Record) : Bool := decide (r.owner = o ∧ r.tag.val = tag.toNat)
    (rs.any (named 2 0) = true ∧ rs.any (named 2 7) = false ∧ rs.any (named 2 255) = false) ∧
    (rs = rs.take 3 ++ recordOf 7 1 none 2 404 none :: rs.drop 4 ∧ (rs.take 3).any (named 7 1) = false ∧
      named 7 1 (recordOf 7 1 none 2 404 none) = true ∧ (recordOf 7 1 none 2 404 none).state = .waiting) ∧
    (rs = [] ++ recordOf 2 0 (some ⟨0, 1⟩) 0 398 (some 400) :: rs.drop 1 ∧
      named 2 0 (recordOf 2 0 (some ⟨0, 1⟩) 0 398 (some 400)) = true ∧
      (recordOf 2 0 (some ⟨0, 1⟩) 0 398 (some 400)).state = .held) ∧
    ((∃ r ∈ rs, r.owner = 2) ∧ ∀ r ∈ rs, r.owner ≠ 15) ∧ (15 : StationNo).val = (0x0F#8).toNat ∧
    ¬ ∃ x : StationNo, x.val = (0x10#8).toNat := by decide +kernel

/-- The walk after frame 410's removal: a grant, and records left waiting by each of the three blocks. -/
theorem witness_GrantEvaluationNeverOvertakes :
    let t : Table := { table410 with
      records := table410.records.drop 1, zoneMap := Vector.replicate 32 none }
    let t' := (t.evaluate 10 410).1
    t.records[(1 : Nat)]? = some (recordOf 5 0 (some ⟨1, 2⟩) 3 402 none) ∧
    t'.records[(1 : Nat)]? = some { recordOf 5 0 (some ⟨1, 2⟩) 3 402 none with state := .held, grantedAt := some 410 } ∧
    t'.records[(2 : Nat)]? = t.records[(2 : Nat)]? ∧ t.inUse ≤ 10 := by decide +kernel

/-- Depths 0, 30, 31 and 32. -/
theorem witness_EventAppendActsByTheDepth :
    (filled 30).port.events.length ≤ 30 ∧ (filled 31).port.events.length = 31 ∧
    (let older := (filled 31).port.events
     let newest : Event := { kind := .overflow, count := some 255 }
     { member with port := { member.port with events := older ++ [newest] } }.port.events = older ++ [newest] ∧
      older.length = 31 ∧ newest.count = some 255) ∧
    member.port.events = [] ∧ { member.cfg with idleTimeout := 20 }.idleTimeout ≠ 0 ∧ (filled 1).port.events ≠ [] := by
  decide +kernel

theorem witness_FrameLevelsReadBack : claim740.body.sendable = true ∧ (header 6 49 0 0xFFFF 0).body.sendable = true ∧
    (recordPart 6 48 49).body.sendable = true := by decide

/-! #### Invariants -/

/-- The member state of these tests meets every invariant, and so does what a beat expiry leaves of it. -/
theorem witness_EveryStepKeepsTheBounds :
    let s := { member with pending := [.beatTimerExpiry] }
    step s = .next (stepped s) ∧ s.boundsOk ∧ s.servingOk ∧ s.eventsOk ∧ s.idleOk ∧ s.lineOk :=
  ⟨rfl, by decide, by decide, by decide, by decide, by decide⟩

/-- So does the state with an own attempt offered, sent and read to its end. -/
theorem lineOk_of_an_attempt : ∀ n ∈ [0, 6, 7, 112], (reading member (entryAttempt .claim claim740.body) n).lineOk := by
  decide +kernel

theorem witness_EveryStepKeepsTheStanding :
    let s := { member with pending := [.beatTimerExpiry] }
    s.standingOk ∧ step s = .next (stepped s) := ⟨by decide, rfl⟩

theorem witness_EveryStepKeepsTheTable :
    let t := Table.ofRecords [recordOf 2 0 (some ⟨4, 4⟩) 0 700 (some 700), recordOf 6 2 (some ⟨4, 31⟩) 10 730 none]
    let s := { member with table := t, pending := [.beatTimerExpiry] }
    s.standingOk ∧ s.table.ok s.cfg ∧ s.ownersOk ∧ step s = .next (stepped s) :=
  ⟨by decide, by decide +kernel, by decide, rfl⟩

theorem witness_EveryStepKeepsThePresence :
    let s := { member with pending := [.beatTimerExpiry] }
    s.standingOk ∧ s.presenceOk ∧ step s = .next (stepped s) := ⟨by decide, by decide, rfl⟩

theorem witness_EveryStepKeepsTheConfiguration :
    let s := { member with pending := [.beatTimerExpiry] }
    step s = .next (stepped s) ∧ s.cfg.ok ∧ s.mem.locked = true := ⟨rfl, by decide, rfl⟩

theorem witness_LineAndTimerCommandsLeaveTheHostSide :
    let c : Instr := .beatTimerExpiry
    exec c member = .next (ran c member) ∧ requestOf c = none ∧ (∀ x h, c ≠ .powerOn x h) ∧ (∀ x h, c ≠ .resetPin x h) ∧
      c ≠ .resetPinAsserted ∧ c ≠ .powerLoss ∧ c ≠ .ssnFallingEdge ∧ (∀ b k, c ≠ .transactionTake b k) ∧
      (∀ b k, c ≠ .statusRead b k) ∧ c ≠ .nop ∧ (∀ w, c ≠ .fetch w) ∧ c ≠ .hostCheckExpiry ∧
      (∀ l h, c ≠ .releaseInPinChange l h) ∧ (∀ l, c ≠ .qualificationExpiry l) ∧ (∀ z, c ≠ .releaseEdge z) ∧
      { member with power := .inReset }.power ≠ .on :=
  ⟨rfl, rfl, nofun, nofun, nofun, nofun, nofun, nofun, nofun, nofun, nofun, nofun, nofun, nofun, nofun, by decide⟩

end Sys2Proof.Tests
end

/-! # The reservation table: the admission of a CLAIM (R10 to R15) -/

namespace Sys2Proof.Machine

/-! ### The cases of R10 -/

/-- R2: an owner and tag name a record when some record carries both. -/
theorem Table.find_isSome_iff (t : Table) (o : StationNo) (tag : Nat) :
    (t.find o tag).isSome = true ↔ ∃ r ∈ t.records, r.owner = o ∧ r.tag.val = tag := by
  simp [Table.find, Record.isOf]

/-- R13: the five ways in which a CLAIM asks for what the table cannot hold. -/
theorem claimOutOfRange_iff (cfg : Cfg) (tag : Byte) (zp : Bool) (lo hi : Byte) (units : Half) :
    claimOutOfRange cfg tag zp lo hi units = true ↔
      7 < tag.toNat ∨ zp = true ∧ hi.toNat < lo.toNat ∨ zp = true ∧ cfg.zoneCount ≤ hi.toNat ∨
        cfg.poolCapacity < units.toNat ∨ zp = false ∧ units = 0 := by
  have no_units : units.toNat = 0 ↔ units = 0 := BitVec.toNat_eq (y := 0).symm
  simp [claimOutOfRange, no_units, or_assoc]

section Admission

variable {t : Table} {cfg : Cfg} {o : StationNo} {tag : Byte} {zp : Bool} {lo hi : Byte} {units : Half}

theorem Table.admission_of_nonmember : t.admission cfg false o tag zp lo hi units = .ignored := rfl

theorem Table.admission_of_duplicate (named : (t.find o tag.toNat).isSome = true) :
    t.admission cfg true o tag zp lo hi units = .refused .duplicate := by
  simp [Table.admission, named]

theorem Table.admission_of_outOfRange (unnamed : ¬ (t.find o tag.toNat).isSome = true)
    (out : claimOutOfRange cfg tag zp lo hi units = true) :
    t.admission cfg true o tag zp lo hi units = .refused .range := by
  simp only [Table.admission, unnamed, out, Bool.not_true, Bool.false_eq_true, if_false, if_true]

/-- R10, R14: once the CLAIM is in range, the room in the table decides. -/
theorem Table.admission_of_inRange (unnamed : ¬ (t.find o tag.toNat).isSome = true)
    (inRange : ¬ claimOutOfRange cfg tag zp lo hi units = true) :
    t.admission cfg true o tag zp lo hi units =
      if Config.maxRecords ≤ t.records.length ∨
        Config.maxPerOwner ≤ (t.records.filter fun r => r.owner = o).length then .refused .full
      else .admitted := by
  simp only [Table.admission, unnamed, inRange, Bool.not_true, Bool.false_eq_true, if_false]

/-! ### What each outcome does -/

/-- R10: any other outcome than ADMITTED leaves the table and is all of the report. -/
theorem Table.applyClaim_of_not_admitted {m : Bool} {seq : Seq} {c : ClaimOutcome} (hc : c ≠ .admitted)
    (h : t.admission cfg m o tag zp lo hi units = c) :
    t.applyClaim cfg m o tag zp lo hi units seq = (t, { claim := some c }) := by
  unfold Table.applyClaim
  rw [h]
  cases c with
  | admitted => exact absurd rfl hc
  | refused _ => rfl
  | ignored => rfl

/-- R15, R16: an ADMITTED CLAIM appends its record and runs one grant evaluation. -/
theorem Table.applyClaim_of_admitted {m : Bool} {seq : Seq}
    (h : t.admission cfg m o tag zp lo hi units = .admitted) :
    let evaluated := Table.evaluate { t with records := t.records ++ [newRecord o tag zp lo hi units seq] }
      cfg.poolCapacity seq
    t.applyClaim cfg m o tag zp lo hi units seq =
      (evaluated.1, { claim := some .admitted, grants := evaluated.2 }) := by
  unfold Table.applyClaim
  rw [h]

/-- R8: a taken CLAIM acts at the table with its sender's standing and its own sequence number. -/
theorem Table.apply_of_claim {isMember : StationNo → Bool} {f : Frame} (h : f.body = .claim tag zp lo hi units) :
    t.apply cfg isMember f = t.applyClaim cfg (isMember f.sender) f.sender tag zp lo hi units f.seq := by
  unfold Table.apply
  rw [h]

end Admission

/-- Settles O48: the conditions of R10 are those of `Table.admission`, and each outcome acts by its lemma. -/
theorem claimIsAdmittedByTheFirstCase : Obligations.ClaimIsAdmittedByTheFirstCase := by
  intro t cfg isMember f tag zp lo hi units hbody o out duplicate outOfRange full record evaluated
  have hout : out = t.applyClaim cfg (isMember o) o tag zp lo hi units f.seq := Table.apply_of_claim hbody
  have named : (t.find o tag.toNat).isSome = true ↔ duplicate := t.find_isSome_iff o tag.toNat
  have range : claimOutOfRange cfg tag zp lo hi units = true ↔ outOfRange :=
    claimOutOfRange_iff cfg tag zp lo hi units
  rw [hout]
  refine ⟨fun hm => ?ignored, fun hm hd => ?duplicate, fun hm hd hr => ?range, fun hm hd hr hf => ?full,
    fun hm hd hr hf => ?admitted⟩ <;> rw [hm]
  case ignored => exact Table.applyClaim_of_not_admitted nofun Table.admission_of_nonmember
  case duplicate => exact Table.applyClaim_of_not_admitted nofun (Table.admission_of_duplicate (named.2 hd))
  case range =>
    exact Table.applyClaim_of_not_admitted nofun (Table.admission_of_outOfRange (mt named.1 hd) (range.2 hr))
  case full =>
    have room := Table.admission_of_inRange (mt named.1 hd) (mt range.1 hr)
    exact Table.applyClaim_of_not_admitted nofun (room.trans (if_pos hf))
  case admitted =>
    have room := Table.admission_of_inRange (mt named.1 hd) (mt range.1 hr)
    exact Table.applyClaim_of_admitted (room.trans (if_neg hf))

end Sys2Proof.Machine

/-! # The local order of the sources (R60, R61) -/

namespace Sys2Proof.Machine

/-! ### What each source offers -/

@[simp] theorem sourceWhen_true (src : Source) : sourceWhen true src = some src := rfl

@[simp] theorem sourceWhen_false (src : Source) : sourceWhen false src = none := rfl

/-- R109: the target of a pending EVICT is the lowest station whose evict flag is set. -/
theorem Presence.evictTarget_eq_some_iff (p : Presence) (n : StationNo) :
    p.evictTarget = some n ↔ p.evictFlag n = true ∧ ∀ k < n, p.evictFlag k = false := by
  rw [Presence.evictTarget, ← Fin.find?_eq_find?_finRange, Fin.find?_eq_some_iff]

theorem Presence.evictTarget_eq_none_iff (p : Presence) : p.evictTarget = none ↔ ∀ n, p.evictFlag n = false := by
  simp [Presence.evictTarget]

/-- R61, second place: the EVICT that a member offers. -/
def State.evictSource (s : State) : Option Source :=
  if s.mem.state = .member then s.pres.evictTarget.map .evict else none

theorem State.evictSource_of_lowest {s : State} {n : StationNo} (member : s.mem.state = .member)
    (flagged : s.pres.evictFlag n = true) (lowest : ∀ k, s.pres.evictFlag k = true → n ≤ k) :
    s.evictSource = some (.evict n) := by
  have unflagged_below : ∀ k < n, s.pres.evictFlag k = false := fun k below =>
    Bool.eq_false_iff.2 fun hk => absurd (lowest k hk) (not_le.2 below)
  have target : s.pres.evictTarget = some n := (s.pres.evictTarget_eq_some_iff n).2 ⟨flagged, unflagged_below⟩
  rw [State.evictSource, if_pos member, target, Option.map_some]

theorem State.evictSource_eq_none_iff (s : State) :
    s.evictSource = none ↔ s.mem.state ≠ .member ∨ ∀ n, s.pres.evictFlag n = false := by
  by_cases member : s.mem.state = .member <;> simp [State.evictSource, member, Presence.evictTarget_eq_none_iff]

section Queue

variable {s : State} {e : Entry} {rest : List Entry} {kinds : List EntryKind}

theorem State.queueHead_of_nil (empty : s.slots.queue = []) : s.queueHead kinds = none := by
  rw [State.queueHead, empty]

/-- R61: the send queue is offered strictly from its head. -/
theorem State.queueHead_of_cons (head : s.slots.queue = e :: rest) :
    s.queueHead kinds = if e.kind ∈ kinds then some (.queue e.id e.kind) else none := by
  rw [State.queueHead, head]
  simp only [List.contains_iff_mem]

end Queue

/-- R61, third place: the queue offers no RELEASE or WITHDRAW when it is empty or begins with a CLAIM. -/
theorem State.queueHead_release_withdraw_eq_none_iff (s : State) :
    s.queueHead [.release, .withdraw] = none ↔ ∀ e rest, s.slots.queue = e :: rest → e.kind = .claim := by
  cases hq : s.slots.queue with
  | nil => simp [State.queueHead_of_nil hq]
  | cons e rest => cases hk : e.kind <;> simp [State.queueHead_of_cons hq, hk]

/-- R61, fifth place: the current part of the serve in progress. -/
def State.snapSource (s : State) : Option Source := s.cu.serve.map fun v => .snap v.index

/-- R61, sixth place: the JOIN that a joining station offers. -/
def State.joinSource (s : State) : Option Source :=
  sourceWhen (s.mem.pendingJoin && decide (s.mem.state = .joining)) .join

theorem State.joinSource_eq_none_iff (s : State) :
    s.joinSource = none ↔ s.mem.pendingJoin = false ∨ s.mem.state ≠ .joining := by
  simp [State.joinSource, sourceWhen, imp_iff_not_or]

/-- R61, last place: the BEAT that a member offers. -/
def State.beatSource (s : State) : Option Source :=
  if s.pres.beatPending = true ∧ s.mem.state = .member then some .beat else none

/-! ### The choice by step state -/

theorem State.choose_of_off {s : State} (off : s.order.step = .off) :
    s.choose = if s.mem.state = .founding ∧ s.mem.pendingFound = true then some .found else none := by
  simp [State.choose, off, sourceWhen]

theorem State.choose_of_behind {s : State} (behind : s.order.step = .behind) :
    s.choose = if s.cu.syncreqPending = true ∧ s.order.lastHeard ≠ none then some .syncreq else none := by
  simp [State.choose, behind, sourceWhen, Option.isSome_iff_ne_none]

section InStep

variable {s : State}

/-- R61: in step, the first of these sources that holds a frame. -/
theorem State.choose_of_inStep (inStep : s.order.step = .inStep) :
    s.choose = ((sourceWhen s.mem.pendingLeave .leave).or <| s.evictSource.or <|
      (s.queueHead [.release, .withdraw]).or <| s.snapSource.or <| s.joinSource.or <|
      (s.queueHead [.claim]).or s.beatSource) := by
  simp only [State.choose, inStep, Option.orElse_eq_or]
  simp [State.evictSource, State.snapSource, State.joinSource, State.beatSource, sourceWhen]

/-- With no LEAVE and no EVICT, the order begins at its third place. -/
theorem State.choose_without_evict (inStep : s.order.step = .inStep) (noLeave : s.mem.pendingLeave = false)
    (noEvict : s.evictSource = none) :
    s.choose = ((s.queueHead [.release, .withdraw]).or <| s.snapSource.or <| s.joinSource.or <|
      (s.queueHead [.claim]).or s.beatSource) := by
  rw [State.choose_of_inStep inStep, noLeave, noEvict, sourceWhen_false, Option.none_or, Option.none_or]

/-- With neither a RELEASE nor a WITHDRAW at the head of the queue either, it begins at its fifth place. -/
theorem State.choose_without_release (inStep : s.order.step = .inStep) (noLeave : s.mem.pendingLeave = false)
    (noEvict : s.evictSource = none) (noRelease : s.queueHead [.release, .withdraw] = none) :
    s.choose = (s.snapSource.or <| s.joinSource.or <| (s.queueHead [.claim]).or s.beatSource) := by
  rw [State.choose_without_evict inStep noLeave noEvict, noRelease, Option.none_or]

/-- With no serve and no JOIN either, a CLAIM at the head of the queue and the BEAT are left. -/
theorem State.choose_without_join (inStep : s.order.step = .inStep) (noLeave : s.mem.pendingLeave = false)
    (noEvict : s.evictSource = none) (noRelease : s.queueHead [.release, .withdraw] = none)
    (noSnap : s.cu.serve = none) (noJoin : s.joinSource = none) :
    s.choose = (s.queueHead [.claim]).or s.beatSource := by
  rw [State.choose_without_release inStep noLeave noEvict noRelease, State.snapSource, noSnap, noJoin,
    Option.map_none, Option.none_or, Option.none_or]

end InStep

/-- Settles O30: in step, each clause passes over the sources that it names as absent and stops at the next one. -/
theorem sourcesAreChosenInTheLocalOrder : Obligations.SourcesAreChosenInTheLocalOrder := by
  intro s
  refine ⟨State.choose_of_off, State.choose_of_behind, fun inStep => ?_⟩
  intro noLeave noEvict noRelease noSnap noJoin
  have evict_none : noEvict → s.evictSource = none := s.evictSource_eq_none_iff.2
  have release_none : noRelease → s.queueHead [.release, .withdraw] = none :=
    s.queueHead_release_withdraw_eq_none_iff.2
  have join_none : noJoin → s.joinSource = none := s.joinSource_eq_none_iff.2
  refine ⟨fun leave => ?leave, fun hl member n flagged lowest => ?evict, fun hl he e rest hq hk => ?release,
    fun hl he hr v serving => ?snap, fun hl he hr hs pending joining => ?join, fun hl he hs hj e rest hq hk => ?claim,
    fun hl he hs hj empty => ?beat⟩
  case leave => rw [State.choose_of_inStep inStep, leave, sourceWhen_true, Option.some_or]
  case evict =>
    rw [State.choose_of_inStep inStep, show s.mem.pendingLeave = false from hl, sourceWhen_false, Option.none_or,
      State.evictSource_of_lowest member flagged lowest, Option.some_or]
  case release =>
    have urgent : e.kind ∈ [EntryKind.release, .withdraw] := by revert hk; cases e.kind <;> simp
    rw [State.choose_without_evict inStep hl (evict_none he), State.queueHead_of_cons hq, if_pos urgent, Option.some_or]
  case snap =>
    rw [State.choose_without_release inStep hl (evict_none he) (release_none hr), State.snapSource, serving,
      Option.map_some, Option.some_or]
  case join =>
    rw [State.choose_without_release inStep hl (evict_none he) (release_none hr)]
    simp [State.snapSource, State.joinSource, show s.cu.serve = none from hs, pending, joining]
  case claim =>
    have noUrgent : s.queueHead [.release, .withdraw] = none := by simp [State.queueHead_of_cons hq, hk]
    rw [State.choose_without_join inStep hl (evict_none he) noUrgent hs (join_none hj)]
    simp [State.queueHead_of_cons hq, hk]
  case beat =>
    rw [State.choose_without_join inStep hl (evict_none he) (State.queueHead_of_nil empty) hs (join_none hj),
      State.queueHead_of_nil empty, Option.none_or, State.beatSource]

end Sys2Proof.Machine

/-! # The expiry of the presence timers and of the idle timer (R83, R102, R107, R193) -/

namespace Sys2Proof.Machine

/-! ### When an expiry takes place -/

@[simp] theorem State.isOn_iff (s : State) : s.isOn = true ↔ s.power = .on := by simp [State.isOn]

@[simp] theorem Timer.isRunning_running (left : Nat) : (Timer.running left).isRunning = true := rfl

@[simp] theorem Watch.isRunning_running (left : Nat) : (Watch.running left).isRunning = true := rfl

theorem happening_of_enabled {enabled : Bool} (h : enabled = true) (effect : State → State) (s : State) :
    happening enabled effect s = .next (effect s) := by
  rw [h, happening_true]

/-- R107 asks for both at once: the station is a MEMBER, and its order tracker is IN_STEP. -/
theorem State.memberInStep_iff (s : State) :
    s.memberInStep = true ↔ s.mem.state = .member ∧ s.order.step = .inStep := by
  simp [State.memberInStep]

/-! ### What each expiry does, on a running part whose timer runs -/

section Expiry

variable {s : State} {left : Nat}

/-- R83: the expiry of the listen timer sends a LISTENING station to FOUNDING. -/
theorem exec_listenTimerExpiry_of_running (on : s.power = .on) (running : s.mem.listen = .running left)
    (listening : s.mem.state = .listening) : exec .listenTimerExpiry s = .next s.listenExpired := by
  change execListenTimerExpiry s = _
  rw [execListenTimerExpiry, happening_of_enabled (by simp [on, running, listening])]

/-- R102: the expiry of the beat timer sets BEAT pending and reloads the timer. -/
theorem exec_beatTimerExpiry_of_running (on : s.power = .on) (running : s.pres.beat = .running left) :
    exec .beatTimerExpiry s =
      .next { s with pres := { s.pres with beat := .running s.cfg.beatInterval, beatPending := true } } := by
  change execBeatTimerExpiry s = _
  rw [execBeatTimerExpiry, happening_of_enabled (by simp [on, running])]

/-- R107: the expiry of an absence timer acts by whether the station itself is a MEMBER in step. -/
theorem exec_absenceTimerExpiry_of_running {x : StationNo} (on : s.power = .on)
    (running : s.pres.absence[x] = .running left) :
    exec (.absenceTimerExpiry x) s = .next
      (if s.memberInStep then { s with pres := { s.pres with absence := s.pres.absence.set x .expired } }
        else { s with pres := s.pres.startAbsence x s.cfg.absenceTime }) := by
  change execAbsenceTimerExpiry x s = _
  rw [execAbsenceTimerExpiry, happening_of_enabled (by rw [running]; simp [on])]

/-- R193: the expiry of the idle timer sets the idle flag and stops the timer. -/
theorem exec_idleTimerExpiry_of_running (on : s.power = .on) (running : s.port.idleTimer = .running left) :
    exec .idleTimerExpiry s = .next { s with port := { s.port with idleTimer := .stopped, idleFlag := true } } := by
  change execIdleTimerExpiry s = _
  rw [execIdleTimerExpiry, happening_of_enabled (by simp [on, running])]

end Expiry

/-- Settles O43: each running timer's expiry happens; that of an absence timer splits on `State.memberInStep`. -/
theorem listenBeatAbsenceAndIdleTimersExpire : Obligations.ListenBeatAbsenceAndIdleTimersExpire := by
  intro s left on
  refine ⟨exec_listenTimerExpiry_of_running on, exec_beatTimerExpiry_of_running on, fun x running => ?absence,
    exec_idleTimerExpiry_of_running on⟩
  case absence =>
    have expiry := exec_absenceTimerExpiry_of_running on running
    refine ⟨fun member inStep => ?evict, fun elsewhere => ?restart⟩
    case evict => rw [expiry, if_pos (s.memberInStep_iff.2 ⟨member, inStep⟩)]
    case restart => rw [expiry, if_neg (mt s.memberInStep_iff.1 elsewhere), Presence.startAbsence, Cfg.absenceTime]

end Sys2Proof.Machine

/-! # The host's own claims: ASK, FREE and CANCEL (R142 to R144) -/

namespace Sys2Proof.Machine

/-! ### The answer to a request -/

/-- R201: a request is answered under the code of the request that its command stands for. -/
theorem code_of_requestOf_commandOf {r q : Request} (stands : requestOf (commandOf r) = some q) : r.code = q.code := by
  unfold commandOf at stands
  split at stands <;> cases stands
  case h_15.refl => rfl
  all_goals exact BitVec.eq_of_toNat_eq ‹_›

/-- R178: a processed request leaves what its effect left, and is answered with the effect's code and data. -/
theorem process_answered {s t : State} {c : Instr} {r q : Request} {effect : State → Answer} {k : RespCode}
    {data : List Byte} (asks : s.asksFor c r) (stands : requestOf c = some q)
    (answer : effect s = { state := t, code := k, data := data }) :
    process c true effect s = .next (t.answeredWith (responseBytes q.code k data)) := by
  have ⟨_, _, command⟩ := asks
  have code : r.code = q.code := code_of_requestOf_commandOf (command ▸ stands)
  rw [process_asked asks, answer, code]
  rfl

/-! ### ASK (R142) -/

/-- R142, second check, on the operands as carried. -/
theorem askOk_askZones_iff (cfg : Cfg) (flags lo hi : Byte) (units : Nat) :
    askOk cfg (askZones flags lo hi) units = true ↔
      (flags.getLsbD 0 = true → lo.toNat ≤ hi.toNat ∧ hi.toNat < cfg.zoneCount) ∧
        units ≤ cfg.poolCapacity ∧ (flags.getLsbD 0 = true ∨ 0 < units) := by
  have zonesPresent : flags.toNat.testBit 0 = flags.getLsbD 0 := rfl
  rw [askZones, zonesPresent]
  cases flags.getLsbD 0 <;> simp [askOk, and_comm]

/-- R142, third check. -/
theorem State.slotOpen_iff (s : State) (t : Tag) :
    s.slotOpen t = true ↔ (s.slot t).state = .free ∧ ∀ e ∈ s.slots.queue, e.tag ≠ t := by
  simp [State.slotOpen]

/-- The search through the tags finds the lowest that passes. -/
theorem tags_find?_of_lowest {p : Tag → Bool} {t : Tag} (passes : p t = true) (lowest : ∀ u, p u = true → t ≤ u) :
    tags.find? p = some t := by
  rw [tags, ← Fin.find?_eq_find?_finRange, Fin.find?_eq_some_iff]
  exact ⟨passes, fun u below => Bool.eq_false_iff.2 fun hu => absurd (lowest u hu) (not_le.2 below)⟩

section Ask

variable {s : State} {zones : Option Range} {units hold : Nat}

theorem State.ask_of_outside (outside : s.mem.state ≠ .member) : s.ask zones units hold = s.deny .state :=
  if_pos outside

theorem State.ask_of_outOfRange (member : s.mem.state = .member) (bad : ¬ askOk s.cfg zones units = true) :
    s.ask zones units hold = s.deny .badArg := by
  simp [State.ask, member, bad]

theorem State.ask_of_noneOpen (member : s.mem.state = .member) (good : askOk s.cfg zones units = true)
    (full : ∀ t, ¬ s.slotOpen t = true) : s.ask zones units hold = s.deny .noSlot := by
  have none_found : tags.find? s.slotOpen = none := List.find?_eq_none.2 fun t _ => full t
  simp [State.ask, member, good, none_found]

theorem State.ask_of_lowestOpen {t : Tag} (member : s.mem.state = .member) (good : askOk s.cfg zones units = true)
    (isOpen : s.slotOpen t = true) (lowest : ∀ u, s.slotOpen u = true → t ≤ u) :
    s.ask zones units hold =
      { state := (s.setSlot t (askSlot zones units hold)).push .claim t, code := .ok, data := [byteOf t.val] } := by
  simp [State.ask, member, good, tags_find?_of_lowest isOpen lowest]

end Ask

/-- ASK is answered as its checks and its effect come out. -/
theorem exec_ask_answered {s t : State} {r : Request} {flags lo hi : Byte} {units hold : Half} {k : RespCode}
    {data : List Byte} (asks : s.asksFor (.ask flags lo hi units hold) r)
    (answer : s.ask (askZones flags lo hi) units.toNat hold.toNat = { state := t, code := k, data := data }) :
    exec (.ask flags lo hi units hold) s = .next (t.answeredWith (responseBytes 0x20#8 k data)) :=
  process_answered (effect := fun s => s.ask (askZones flags lo hi) units.toNat hold.toNat) asks rfl answer

/-- Settles O19: `State.ask` passes its three checks in order, each read off the operands or the slots by its own lemma. -/
theorem askOpensTheLowestSlot : Obligations.AskOpensTheLowestSlot := by
  intro s r flags lo hi units hold asks zones inRange isOpen
  have range : askOk s.cfg (askZones flags lo hi) units.toNat = true ↔ inRange :=
    askOk_askZones_iff s.cfg flags lo hi units.toNat
  have opens (t : Tag) : s.slotOpen t = true ↔ isOpen t := s.slotOpen_iff t
  refine ⟨fun outside => ?outside, fun member bad => ?range, fun member good full => ?full,
    fun member good t ht lowest => ?opened⟩
  case outside => exact exec_ask_answered asks (State.ask_of_outside outside)
  case range => exact exec_ask_answered asks (State.ask_of_outOfRange member (mt range.1 bad))
  case full =>
    exact exec_ask_answered asks (State.ask_of_noneOpen member (range.2 good) fun t => mt (opens t).1 (full t))
  case opened =>
    exact exec_ask_answered asks
      (State.ask_of_lowestOpen member (range.2 good) ((opens t).2 ht) fun u hu => lowest u ((opens u).1 hu))

/-! ### The checks that FREE and CANCEL share (R143, R144) -/

@[simp] theorem State.memberFlag_iff (s : State) :
    s.memberFlag = true ↔ s.mem.state = .member ∨ s.mem.state = .leaving := by
  simp [State.memberFlag]

section OnSlot

variable {s : State} {tag : Byte} {act : Tag → State × RespCode}

theorem State.onSlot_of_noSuchTag (above : 7 < tag.toNat) : s.onSlot tag act = s.deny .badArg :=
  dif_neg (by omega)

theorem State.onSlot_of_outside (inRange : tag.toNat ≤ 7) (notMember : s.mem.state ≠ .member)
    (notLeaving : s.mem.state ≠ .leaving) : s.onSlot tag act = s.deny .state := by
  have below : tag.toNat < 8 := by omega
  simp [State.onSlot, below, notMember, notLeaving]

/-- On a slot of a member the request's own act decides. -/
theorem State.onSlot_of_member {t : Tag} {u : State} {k : RespCode} (names : tag.toNat = t.val)
    (member : s.mem.state = .member ∨ s.mem.state = .leaving) (row : act t = (u, k)) :
    s.onSlot tag act = { state := u, code := k } := by
  have below : tag.toNat < 8 := names ▸ t.isLt
  have named : (⟨tag.toNat, below⟩ : Tag) = t := Fin.ext names
  simp [State.onSlot, below, member, named, row]

end OnSlot

/-! ### FREE on a slot, row by row (R143) -/

section FreeSlot

variable {s : State} {t : Tag} (c : ReleaseCause)

theorem State.freeSlot_of_free (free : (s.slot t).state = .free) : s.freeSlot t c = (s, .noTag) := by
  simp [State.freeSlot, free]

/-- A claim that was not sent ends at once. -/
theorem State.freeSlot_of_pending_offLine (pending : (s.slot t).state = .pending) (offLine : s.slotOnLine t = false) :
    s.freeSlot t c = ((s.dropEntryOf t).freeWith t .freed .notSent none, .ok) := by
  simp [State.freeSlot, pending, offLine]

/-- A slot whose CLAIM or WITHDRAW is on the line is marked, to be released after the outcome. -/
theorem State.freeSlot_of_onLine_unmarked (sending : (s.slot t).state = .pending ∨ (s.slot t).state = .cancelling)
    (onLine : s.slotOnLine t = true) (unmarked : (s.slot t).mark ≠ .releaseAfter) :
    s.freeSlot t c = (s.setSlot t { s.slot t with mark := .releaseAfter, cause := some c }, .ok) := by
  obtain pending | cancelling := sending
  · simp [State.freeSlot, pending, onLine, unmarked]
  · simp [State.freeSlot, cancelling, onLine, unmarked]

theorem State.freeSlot_of_onLine_marked (sending : (s.slot t).state = .pending ∨ (s.slot t).state = .cancelling)
    (onLine : s.slotOnLine t = true) (marked : (s.slot t).mark = .releaseAfter) : s.freeSlot t c = (s, .state) := by
  obtain pending | cancelling := sending
  · simp [State.freeSlot, pending, onLine, marked]
  · simp [State.freeSlot, cancelling, onLine, marked]

/-- A claim in the table of which nothing is queued gets a RELEASE at the back of the queue. -/
theorem State.freeSlot_of_unqueued
    (inTable : (s.slot t).state = .waiting ∨ (s.slot t).state = .held ∧ s.slots.entryOf t = none) :
    s.freeSlot t c = ((s.setSlot t { (s.slot t).toReleasing .none with cause := some c }).push .release t, .ok) := by
  obtain waiting | ⟨held, noEntry⟩ := inTable
  · simp [State.freeSlot, waiting]
  · simp [State.freeSlot, held, noEntry]

/-- A claim granted before its WITHDRAW was sent waits with its RELEASE for the outcome of the WITHDRAW. -/
theorem State.freeSlot_of_held_overtaken (held : (s.slot t).state = .held) (entry : s.slots.entryOf t ≠ none) :
    s.freeSlot t c = (s.setSlot t { (s.slot t).toReleasing .releaseAfter with cause := some c }, .ok) := by
  have queued : (s.slots.entryOf t).isSome = true := Option.isSome_iff_ne_none.2 entry
  simp [State.freeSlot, held, queued]

/-- A WITHDRAW that was not sent becomes the RELEASE. -/
theorem State.freeSlot_of_cancelling_offLine (cancelling : (s.slot t).state = .cancelling)
    (offLine : s.slotOnLine t = false) :
    s.freeSlot t c = ((s.setSlot t { (s.slot t).toReleasing .none with cause := some c }).toRelease t, .ok) := by
  simp [State.freeSlot, cancelling, offLine]

theorem State.freeSlot_of_releasing (releasing : (s.slot t).state = .releasing) : s.freeSlot t c = (s, .state) := by
  simp [State.freeSlot, releasing]

end FreeSlot

/-- FREE is answered as its checks and its effect on the slot come out. -/
theorem exec_free_answered {s u : State} {r : Request} {tag : Byte} {k : RespCode} (asks : s.asksFor (.free tag) r)
    (answer : (s.onSlot tag fun t => s.freeSlot t .host) = { state := u, code := k }) :
    exec (.free tag) s = .next (u.answeredWith [0x03#8, 0x21#8, k.code]) :=
  process_answered (effect := fun s => s.onSlot tag fun t => s.freeSlot t .host) asks rfl answer

/-- Settles O20: past the shared checks each row of R143 is the lemma of `State.freeSlot` for that row. -/
theorem freeGivesUpTheSlot : Obligations.FreeGivesUpTheSlot := by
  intro s r tag asks
  refine ⟨fun above => exec_free_answered asks (State.onSlot_of_noSuchTag above),
    fun inRange notMember notLeaving =>
      exec_free_answered asks (State.onSlot_of_outside inRange notMember notLeaving),
    fun t names member => ?rows⟩
  intro x noTag refused ok releasing queued marked
  have row {u : State} {k : RespCode} (acts : s.freeSlot t .host = (u, k)) :
      exec (.free tag) s = .next (u.answeredWith [0x03#8, 0x21#8, k.code]) :=
    exec_free_answered asks (State.onSlot_of_member names member acts)
  refine ⟨fun free => row (State.freeSlot_of_free _ free),
    fun pending offLine => row (State.freeSlot_of_pending_offLine _ pending offLine),
    fun pending onLine unmarked => row (State.freeSlot_of_onLine_unmarked _ (.inl pending) onLine unmarked),
    fun pending onLine isMarked => row (State.freeSlot_of_onLine_marked _ (.inl pending) onLine isMarked),
    fun waiting => row (State.freeSlot_of_unqueued _ (.inl waiting)),
    fun held noEntry => row (State.freeSlot_of_unqueued _ (.inr ⟨held, noEntry⟩)),
    fun held entry => row (State.freeSlot_of_held_overtaken _ held entry),
    fun cancelling offLine => row (State.freeSlot_of_cancelling_offLine _ cancelling offLine),
    fun cancelling onLine unmarked => row (State.freeSlot_of_onLine_unmarked _ (.inr cancelling) onLine unmarked),
    fun cancelling onLine isMarked => row (State.freeSlot_of_onLine_marked _ (.inr cancelling) onLine isMarked),
    fun isReleasing => row (State.freeSlot_of_releasing _ isReleasing)⟩

/-! ### CANCEL on a slot, row by row (R144) -/

section CancelSlot

variable {s : State} {t : Tag}

theorem State.cancelSlot_of_free (free : (s.slot t).state = .free) : s.cancelSlot t = (s, .noTag) := by
  simp [State.cancelSlot, free]

/-- A claim that was not sent ends at once. -/
theorem State.cancelSlot_of_pending_offLine (pending : (s.slot t).state = .pending)
    (offLine : s.slotOnLine t = false) :
    s.cancelSlot t = ((s.dropEntryOf t).freeWith t .withdrawn .notSent none, .ok) := by
  simp [State.cancelSlot, pending, offLine]

/-- A claim on the line is marked, to be withdrawn after the outcome. -/
theorem State.cancelSlot_of_pending_onLine_unmarked (pending : (s.slot t).state = .pending)
    (onLine : s.slotOnLine t = true) (unmarked : (s.slot t).mark = .none) :
    s.cancelSlot t = (s.setSlot t { s.slot t with mark := .cancelAfter }, .ok) := by
  simp [State.cancelSlot, pending, onLine, unmarked]

/-- A slot already marked, by FREE or by CANCEL, stays as it is. -/
theorem State.cancelSlot_of_pending_onLine_marked (pending : (s.slot t).state = .pending)
    (onLine : s.slotOnLine t = true) (marked : (s.slot t).mark ≠ .none) : s.cancelSlot t = (s, .state) := by
  simp [State.cancelSlot, pending, onLine, marked]

/-- A waiting claim gets a WITHDRAW at the back of the queue. -/
theorem State.cancelSlot_of_waiting (waiting : (s.slot t).state = .waiting) :
    s.cancelSlot t = ((s.setSlot t { s.slot t with state := .cancelling }).push .withdraw t, .ok) := by
  simp [State.cancelSlot, waiting]

/-- A claim that is held or already being given up is left to FREE. -/
theorem State.cancelSlot_of_tooLate
    (tooLate : (s.slot t).state = .held ∨ (s.slot t).state = .cancelling ∨ (s.slot t).state = .releasing) :
    s.cancelSlot t = (s, .state) := by
  obtain held | cancelling | releasing := tooLate
  · simp [State.cancelSlot, held]
  · simp [State.cancelSlot, cancelling]
  · simp [State.cancelSlot, releasing]

end CancelSlot

/-- CANCEL is answered as its checks and its effect on the slot come out. -/
theorem exec_cancel_answered {s u : State} {r : Request} {tag : Byte} {k : RespCode}
    (asks : s.asksFor (.cancel tag) r)
    (answer : (s.onSlot tag fun t => s.cancelSlot t) = { state := u, code := k }) :
    exec (.cancel tag) s = .next (u.answeredWith [0x03#8, 0x22#8, k.code]) :=
  process_answered (effect := fun s => s.onSlot tag fun t => s.cancelSlot t) asks rfl answer

/-- Settles O21: past the shared checks each row of R144 is the lemma of `State.cancelSlot` for that row. -/
theorem cancelDropsAnUngrantedClaim : Obligations.CancelDropsAnUngrantedClaim := by
  intro s r tag asks
  refine ⟨fun above => exec_cancel_answered asks (State.onSlot_of_noSuchTag above),
    fun inRange notMember notLeaving =>
      exec_cancel_answered asks (State.onSlot_of_outside inRange notMember notLeaving),
    fun t names member => ?rows⟩
  intro x refused ok
  have row {u : State} {k : RespCode} (acts : s.cancelSlot t = (u, k)) :
      exec (.cancel tag) s = .next (u.answeredWith [0x03#8, 0x22#8, k.code]) :=
    exec_cancel_answered asks (State.onSlot_of_member names member acts)
  refine ⟨fun free => row (State.cancelSlot_of_free free),
    fun pending offLine => row (State.cancelSlot_of_pending_offLine pending offLine),
    fun pending onLine unmarked => row (State.cancelSlot_of_pending_onLine_unmarked pending onLine unmarked),
    fun pending onLine marked => row (State.cancelSlot_of_pending_onLine_marked pending onLine marked),
    fun waiting => row (State.cancelSlot_of_waiting waiting),
    fun tooLate => row (State.cancelSlot_of_tooLate tooLate)⟩

end Sys2Proof.Machine

/-! # The counters, and a code that names no request: TALLY and UNKNOWN (R187, R179) -/

namespace Sys2Proof.Machine

/-! ### 16-bit fields one after another (R196) -/

@[simp] theorem halfBytes_length (h : Half) : (halfBytes h).length = 2 := rfl

/-- Of fields listed one after another, two bytes at twice a field's place are that field. -/
theorem take_two_drop_flatMap_halfBytes (fields : List Half) (k : Nat) (inList : k < fields.length) :
    ((fields.flatMap halfBytes).drop (2 * k)).take 2 = halfBytes fields[k] := by
  induction fields generalizing k with
  | nil => exact absurd inList (Nat.not_lt_zero k)
  | cons h rest ih =>
    cases k with
    | zero => rfl
    | succ k => exact ih k (Nat.lt_of_succ_lt_succ inList)

/-- R202: the 28 counters make a response of 59 bytes. -/
theorem responseBytes_counters (code : Byte) (counters : Vector Half 28) :
    responseBytes code .ok (counters.toList.flatMap halfBytes) =
      [59#8, code, 0x00#8] ++ counters.toList.flatMap halfBytes := by
  have length : (counters.toList.flatMap halfBytes).length = 56 := by simp [List.length_flatMap]
  rw [responseBytes, length]
  rfl

/-! ### TALLY (R187) -/

/-- R187: the counters as they stood go out, and each becomes 0. -/
theorem exec_tally_answered {s : State} {r : Request} (asks : s.asksFor .tally r) :
    exec .tally s = .next (State.answeredWith
      { s with port := { s.port with counters := Vector.replicate 28 0 } }
      ([59#8, 0x44#8, 0x00#8] ++ s.port.counters.toList.flatMap halfBytes)) := by
  rw [← responseBytes_counters]
  apply process_answered asks rfl
  rfl

/-! ### UNKNOWN (R179) -/

/-- R156, R179: the answer names the code that was not known, and the host-check timer is not restarted. -/
theorem exec_unknown_answered {s : State} {r : Request} {code : Byte} (asks : s.asksFor (.unknown code) r) :
    exec (.unknown code) s = .next
      { s with port := { s.port with request := none, response := some [0x03#8, code, 0x06#8] } } := by
  have ⟨_, _, command⟩ := asks
  have named : r.code = code := code_of_requestOf_commandOf (q := { code := code, body := [] }) (command ▸ rfl)
  calc exec (.unknown code) s
    _ = .next (s.respond r.code .unknown []) := process_asked asks false fun s => s.deny .unknown
    _ = .next (s.respond code .unknown []) := by rw [named]

/-- Settles O27: each command's next state is given by its own lemma, and the counters' bytes are read field by field. -/
theorem tallyZeroesAndUnknownOnlyAnswers : Obligations.TallyZeroesAndUnknownOnlyAnswers := by
  refine ⟨fun s r code asks => exec_unknown_answered asks,
    fun s r asks => ⟨_, exec_tally_answered asks, rfl, fun k => ?zeroed, fun k => ?listed⟩⟩
  case zeroed => simp [State.answeredWith]
  case listed => simpa using take_two_drop_flatMap_halfBytes s.port.counters.toList k.val (by simp)

end Sys2Proof.Machine

/-! # What a step can do -/

namespace Sys2Proof.Machine

/-! ### What the processing of a request comes to (R178) -/

/-- What the processing of a request can come to at a state: nothing but an answer, or the effect of one request with the
check that it has passed. -/
inductive Processing (s : State) : Answer → Prop
  | denied (k : RespCode) : Processing s (s.deny k)
  | configured (b : SetupBody) (unlocked : s.mem.locked = false) (idle : s.mem.state = .idle) (inRange : setupOk b = true) :
    Processing s { state := s.configure b, code := .ok }
  | started (idle : s.mem.state = .idle) :
    Processing s
      { state := (State.enterListening { s with mem := { s.mem with locked := true } } .start none).startHostCheck
        code := .ok }
  | restarted : Processing s { state := s.softReset, code := .ok }
  | opened (t : Tag) (zones : Option Range) (units hold : Nat) (data : List Byte) :
    Processing s { state := (s.setSlot t (askSlot zones units hold)).push .claim t, code := .ok, data := data }
  | freed (t : Tag) : Processing s { state := (s.freeSlot t .host).1, code := (s.freeSlot t .host).2 }
  | cancelled (t : Tag) : Processing s { state := (s.cancelSlot t).1, code := (s.cancelSlot t).2 }
  | surrendered : Processing s { state := s.surrender, code := .ok }
  | departed (inStep : s.memberInStep = true) : Processing s { state := s.enterLeaving, code := .ok }
  | rejoined (isOut : s.mem.state.isOut = true) : Processing s { state := s.enterListening .rejoin none, code := .ok }
  | shown (data : List Byte) : Processing s { state := s, code := .ok, data := data }
  | pointed (cursor : Cursor) (data : List Byte) :
    Processing s { state := { s with port := { s.port with cursor := cursor } }, code := .ok, data := data }
  | took (count : Nat) (data : List Byte) :
    Processing s
      { state := { s with port :=
          Port.idleAfterTake { s.port with events := s.port.events.drop count } s.cfg.idleTimeout }
        code := .ok, data := data }
  | tallied (data : List Byte) :
    Processing s { state := { s with port := { s.port with counters := Vector.replicate 28 0 } }, code := .ok, data := data }

section Processing

variable (s : State)

theorem State.setup_processing (b : SetupBody) : Processing s (s.setup b) := by
  unfold State.setup
  split
  · exact .denied _
  · next open_ =>
    split
    · exact .denied _
    · next good =>
      simp only [Bool.or_eq_true, decide_eq_true_eq, not_or, Bool.not_eq_true, not_not] at open_
      exact .configured b open_.1 open_.2 (by simpa using good)

theorem State.start_processing : Processing s s.start := by
  unfold State.start
  split
  · next h => exact .started h.1
  · exact .denied _

theorem State.ask_processing (zones : Option Range) (units hold : Nat) : Processing s (s.ask zones units hold) := by
  unfold State.ask
  split
  · exact .denied _
  · split
    · exact .denied _
    · split
      · exact .denied _
      · exact .opened _ _ _ _ _

/-- R143, R144: the checks that FREE and CANCEL share come before what either does to the slot. -/
theorem State.onSlot_processing (tag : Byte) (act : Tag → State × RespCode)
    (acts : ∀ t, Processing s { state := (act t).1, code := (act t).2 }) : Processing s (s.onSlot tag act) := by
  unfold State.onSlot
  split
  · split
    · exact acts _
    · exact .denied _
  · exact .denied _

theorem State.surrender_processing :
    Processing s (if s.memberFlag then { state := s.surrender, code := .ok } else s.deny .state) := by
  split
  · exact .surrendered
  · exact .denied _

theorem State.depart_processing :
    Processing s (if s.memberInStep then { state := s.enterLeaving, code := .ok } else s.deny .state) := by
  split
  · next h => exact .departed h
  · exact .denied _

theorem State.rejoin_processing :
    Processing s (if s.mem.state.isOut then { state := s.enterListening .rejoin none, code := .ok } else s.deny .state) := by
  split
  · next h => exact .rejoined h
  · exact .denied _

theorem State.view_processing (code index auto : Byte) :
    Processing s
      (match cursorOf code index auto with
       | some c => { state := { s with port := { s.port with cursor := c } }, code := .ok }
       | none => s.deny .badArg) := by
  split
  · exact .pointed _ _
  · exact .denied _

theorem State.read_processing (count : Nat) : Processing s (s.read count) := by
  unfold State.read
  split
  · exact .pointed _ _
  · exact .denied _

theorem State.take_processing (count : Nat) : Processing s (s.take count) := by
  unfold State.take
  split
  · exact .took _ _
  · exact .denied _

end Processing

/-! ### What a command can do -/

/-- What a command whose happening takes place can do to a state. -/
inductive Happens (s : State) : State → Prop
  | hardReset (x : Straps) (ssnHigh : Bool) : Happens s (s.hardReset x ssnHigh)
  | cutOff (p : Power) : Happens s (s.cutOff p)
  | ssnFalls (ready : s.port.spi = .ready) :
    Happens s { s with port := { s.port with spi := .opened s.statusByte s.port.response } }
  | ssnRises (bytes : List Byte) (cut : Bool) : Happens s (s.ssnRises bytes cut)
  | processed (touch : Bool) (code : Byte) (a : Answer) (answer : Processing s a) :
    Happens s ((if touch then a.state.touchHostCheck else a.state).respond code a.code a.data)
  | lineHears (levels : List Bool) (l : LineIf) (view : s.line.view = .settling ∨ s.line.view = .stuck)
      (read : s.line.hearsAll levels = some l) : Happens s { s with line := l }
  | lineSettles (levels : List Bool) (l : LineIf) (view : s.line.view = .settling)
      (read : s.line.hearsAll levels = some l) :
    Happens s { s with line := { l with view := .quiet, quietBits := Config.idleGap, dominantBits := 0 } }
  | lineSticks (levels : List Bool) (l : LineIf) (view : s.line.view = .settling)
      (read : s.line.hearsAll levels = some l) :
    Happens s (State.emit
      { s with line := { l with view := .stuck, quietBits := 0, dominantBits := 0, stuck := true } } { kind := .lineStuck })
  | lineClears (levels : List Bool) (l : LineIf) (view : s.line.view = .stuck)
      (read : s.line.hearsAll levels = some l) :
    Happens s (State.emit
      { s with line := { l with view := .quiet, quietBits := Config.idleGap, dominantBits := 0, stuck := false } }
      { kind := .lineClear })
  | frameStarts (levels : List Bool) (view : s.line.view = .quiet) (idle : s.line.tx = .idle) :
    Happens s { s with line := { s.line with view := .frame, quietBits := 0, rx := some (false :: levels) } }
  | attemptStarts (a : Attempt) (view : s.line.view = .quiet) : Happens s (s.startAttempt a)
  | quietCounts (bits : Nat) (view : s.line.view = .quiet) :
    Happens s { s with line := { s.line with quietBits := s.line.counted bits } }
  | attemptLost (a : Attempt) (levels read : List Bool) (offering : s.line.tx = .offering a)
      (after : s.line.frameAfter levels = some read) :
    Happens s (State.ownLost { s with line := { s.line with tx := .idle, rx := some read } } a)
  | attemptFaults (a : Attempt) (levels read : List Bool) (after : s.line.frameAfter levels = some read)
      (faults : s.line.tx.faultsAt read = some a) : Happens s { s with line := s.line.stopFaulted a read }
  | frameBreaks (receiving : s.receiving = true) :
    Happens s
      ((State.bump
        { s with line := { s.line with view := .settling, quietBits := 0, dominantBits := 1, rx := none, faulted := none } }
        .checkFailures).deliverFault s.line.faulted)
  | remainsEnd (receiving : s.receiving = true) :
    Happens s { s with line := { s.line with rx := none, awaiting := .ownRemains, slot := [] } }
  | frameEnds (r : Received) (receiving : s.receiving = true) : Happens s (s.frameEnds r)
  | slotPasses (awaits : s.line.awaiting ≠ .nothing) :
    Happens s (State.deliverFault { s with line := s.line.toQuiet } s.line.faulted)
  | outcome (r : Received) (v : Vote) (recessive : Bool) (awaits : s.line.awaiting = .heard r v) :
    Happens s
      (let t := State.outcomeHeard { s with line := { s.line with awaiting := .nothing } } r v recessive
       { t with line := t.line.toQuiet }.deliverFault s.line.faulted)
  | ownTaken (a : Attempt) (attempt : s.line.attempt = some a) :
    Happens s (State.ownTaken { s with line := s.line.toQuiet } a)
  | ownUnsent (a : Attempt) (attempt : s.line.attempt = some a) :
    Happens s (State.ownUnsent { s with line := s.line.toQuiet } a false)
  | partSent (a : Attempt) (attempt : s.line.attempt = some a) :
    Happens s (State.partSent { s with line := s.line.toQuiet, order := { s.order with ownRunOf := none } })
  | listenExpires (listening : s.mem.state = .listening) : Happens s s.listenExpired
  | beatExpires (running : s.pres.beat.isRunning = true) :
    Happens s { s with pres := { s.pres with beat := .running s.cfg.beatInterval, beatPending := true } }
  | evictFlagSets (n : StationNo) (running : s.pres.absence[n].isRunning = true) (inStep : s.memberInStep = true) :
    Happens s { s with pres := { s.pres with absence := s.pres.absence.set n .expired } }
  | absenceRestarts (n : StationNo) (running : s.pres.absence[n].isRunning = true) :
    Happens s { s with pres := s.pres.startAbsence n s.cfg.absenceTime }
  | catchupWaitExpires (running : s.cu.wait.isRunning = true) : Happens s (s.failAttempt .timeout)
  | holdExpires (t : Tag) : Happens s ((s.emit (slotEvent .holdExpired t none none)).giveUp .hold t)
  | hostCheckExpires :
    Happens s
      (let u := (s.emit { kind := .hostSilent }).surrender
       { u with slots := { u.slots with hostCheck := .expired } })
  | idleTimerExpires (running : s.port.idleTimer.isRunning = true) :
    Happens s { s with port := { s.port with idleTimer := .stopped, idleFlag := true } }
  | zoneLinesMove (zl : ZoneLines) : Happens s { s with zl := zl }
  | edgeArrives (zl : ZoneLines) (zone : Nat) : Happens s (State.releaseZone { s with zl := zl } zone)

/-- A happening that answers `t` has taken place, or changed nothing. -/
theorem happening_cases {enabled : Bool} {effect : State → State} {s t : State}
    (h : happening enabled effect s = .next t) : t = s ∨ enabled = true ∧ t = effect s := by
  cases enabled
  · exact .inl (by cases h; rfl)
  · exact .inr ⟨rfl, by cases h; rfl⟩

/-- What a request's command leaves. -/
theorem process_happens {c : Instr} {touch : Bool} {effect : State → Answer} {s t : State}
    (h : process c touch effect s = .next t) (answer : Processing s (effect s)) : t = s ∨ Happens s t := by
  refine (happening_cases h).imp_right fun ⟨enabled, result⟩ => ?_
  cases hr : s.port.request with
  | none => simp [hr] at enabled
  | some r =>
    simp only [hr] at result
    exact result ▸ .processed _ _ _ answer

section Line

variable {s t : State}

theorem execLineSettled_happens {levels : List Bool} (h : execLineSettled s levels = .next t) : t = s ∨ Happens s t := by
  refine (happening_cases h).elim .inl fun ⟨enabled, result⟩ => ?_
  simp only [Bool.and_eq_true, decide_eq_true_eq] at enabled
  split at result
  · exact .inl result
  · next l read =>
    split at result
    · exact .inr (result ▸ .lineSettles levels l enabled.2 read)
    · exact .inr (result ▸ .lineHears levels l (.inl enabled.2) read)

theorem execLineStuck_happens {levels : List Bool} (h : execLineStuck s levels = .next t) : t = s ∨ Happens s t := by
  refine (happening_cases h).elim .inl fun ⟨enabled, result⟩ => ?_
  simp only [Bool.and_eq_true, decide_eq_true_eq] at enabled
  split at result
  · exact .inl result
  · next l read =>
    split at result
    · exact .inr (result ▸ .lineSticks levels l enabled.2 read)
    · exact .inr (result ▸ .lineHears levels l (.inl enabled.2) read)

theorem execLineClear_happens {levels : List Bool} (h : execLineClear s levels = .next t) : t = s ∨ Happens s t := by
  refine (happening_cases h).elim .inl fun ⟨enabled, result⟩ => ?_
  simp only [Bool.and_eq_true, decide_eq_true_eq] at enabled
  split at result
  · exact .inl result
  · next l read =>
    split at result
    · exact .inr (result ▸ .lineClears levels l enabled.2 read)
    · exact .inr (result ▸ .lineHears levels l (.inr enabled.2) read)

theorem execLineFrameStart_happens {levels : List Bool} (h : execLineFrameStart s levels = .next t) :
    t = s ∨ Happens s t := by
  refine (happening_cases h).imp_right fun ⟨enabled, result⟩ => ?_
  simp only [Bool.and_eq_true, decide_eq_true_eq] at enabled
  exact result ▸ .frameStarts levels enabled.1.2 enabled.2

theorem execAttemptStart_happens {bits : Nat} (h : execAttemptStart bits s = .next t) : t = s ∨ Happens s t := by
  refine (happening_cases h).imp_right fun ⟨enabled, result⟩ => ?_
  simp only [Bool.and_eq_true, decide_eq_true_eq] at enabled
  split at result
  · next a _ _ => exact result ▸ .attemptStarts a enabled.2
  · exact result ▸ .quietCounts bits enabled.2

theorem execAttemptLost_happens {levels : List Bool} (h : execAttemptLost s levels = .next t) : t = s ∨ Happens s t := by
  refine (happening_cases h).elim .inl fun ⟨_, result⟩ => ?_
  split at result
  · next a read offering after =>
    split at result
    · exact .inr (result ▸ .attemptLost a levels read offering after)
    · exact .inl result
  · exact .inl result

theorem execAttemptFault_happens {levels : List Bool} (h : execAttemptFault levels s = .next t) :
    t = s ∨ Happens s t := by
  refine (happening_cases h).elim .inl fun ⟨_, result⟩ => ?_
  split at result
  · exact .inl result
  · next read after =>
    split at result
    · next a faults => exact .inr (result ▸ .attemptFaults a levels read after faults)
    · exact .inl result

theorem execFrameBroken_happens {levels : List Bool} (h : execFrameBroken s levels = .next t) : t = s ∨ Happens s t := by
  refine (happening_cases h).imp_right fun ⟨enabled, result⟩ => ?_
  simp only [Bool.and_eq_true] at enabled
  exact result ▸ .frameBreaks enabled.1.2

theorem execFrameEnd_happens {levels : List Bool} (h : execFrameEnd levels s = .next t) : t = s ∨ Happens s t := by
  refine (happening_cases h).elim .inl fun ⟨enabled, result⟩ => ?_
  simp only [Bool.and_eq_true] at enabled
  split at result
  · exact .inl result
  · split at result
    · exact .inr (result ▸ .remainsEnd enabled.1.2)
    · exact .inr (result ▸ .frameEnds _ enabled.1.2)

theorem execFrameOutcome_happens {others : List Bool} (h : execFrameOutcome others s = .next t) :
    t = s ∨ Happens s t := by
  refine (happening_cases h).elim .inl fun ⟨enabled, result⟩ => ?_
  simp only [Bool.and_eq_true, decide_eq_true_eq] at enabled
  split at result
  · exact .inl result
  · exact .inr (result ▸ .slotPasses enabled.1.2)
  · exact .inr (result ▸ .slotPasses enabled.1.2)
  · next r v awaits => exact .inr (result ▸ .outcome r v _ awaits)

/-- An attempt that is completed is the one in flight. -/
theorem LineIf.attempt_of_completes {l : LineIf} {levels : List Bool} {a : Attempt} {recessive : Bool}
    (h : l.completes levels = some (a, recessive)) : l.attempt = some a :=
  ((l.completes_iff levels a recessive).1 h).1

theorem execOwnFrameOutcome_happens {levels : List Bool} (h : execOwnFrameOutcome levels s = .next t) :
    t = s ∨ Happens s t := by
  refine (happening_cases h).elim .inl fun ⟨_, result⟩ => ?_
  split at result
  · exact .inl result
  · next a recessive completes =>
    have attempt := LineIf.attempt_of_completes completes
    split at result
    · dsimp only at result
      split at result
      · exact .inr (result ▸ .ownTaken a attempt)
      · exact .inr (result ▸ .ownUnsent a attempt)
    · exact .inl result

theorem execSnapSent_happens {levels : List Bool} (h : execSnapSent levels s = .next t) : t = s ∨ Happens s t := by
  refine (happening_cases h).elim .inl fun ⟨_, result⟩ => ?_
  split at result
  · exact .inl result
  · next a recessive completes =>
    split at result
    · exact .inl result
    · exact .inr (result ▸ .partSent a (LineIf.attempt_of_completes completes))

end Line

section Expiries

variable {s t : State}

theorem execAbsenceTimerExpiry_happens {n : StationNo} (h : execAbsenceTimerExpiry n s = .next t) :
    t = s ∨ Happens s t := by
  refine (happening_cases h).imp_right fun ⟨enabled, result⟩ => ?_
  simp only [Bool.and_eq_true] at enabled
  split at result
  · next inStep => exact result ▸ .evictFlagSets n enabled.2 inStep
  · exact result ▸ .absenceRestarts n enabled.2

theorem execReleaseInPinChange_happens {line : LineNo} {high : Bool} (h : execReleaseInPinChange line high s = .next t) :
    t = s ∨ Happens s t := by
  refine (happening_cases h).imp_right fun ⟨_, result⟩ => ?_
  dsimp only at result
  split at result
  · exact result ▸ .zoneLinesMove _
  · exact result ▸ .zoneLinesMove _

end Expiries

section Requests

variable {s t : State}

theorem execSetup_happens {body : SetupBody} (h : execSetup body s = .next t) : t = s ∨ Happens s t :=
  process_happens h (s.setup_processing body)

theorem execStart_happens (h : execStart s = .next t) : t = s ∨ Happens s t :=
  process_happens h (s.start_processing)

theorem execRestart_happens (h : execRestart s = .next t) : t = s ∨ Happens s t :=
  process_happens h .restarted

theorem execAsk_happens {flags lo hi : Byte} {units hold : Half} (h : execAsk flags lo hi units hold s = .next t) : t = s ∨ Happens s t :=
  process_happens h (s.ask_processing _ _ _)

theorem execFree_happens {tag : Byte} (h : execFree tag s = .next t) : t = s ∨ Happens s t :=
  process_happens h (s.onSlot_processing tag _ .freed)

theorem execCancel_happens {tag : Byte} (h : execCancel tag s = .next t) : t = s ∨ Happens s t :=
  process_happens h (s.onSlot_processing tag _ .cancelled)

theorem execSurrender_happens (h : execSurrender s = .next t) : t = s ∨ Happens s t :=
  process_happens h (s.surrender_processing)

theorem execDepart_happens (h : execDepart s = .next t) : t = s ∨ Happens s t :=
  process_happens h (s.depart_processing)

theorem execRejoin_happens (h : execRejoin s = .next t) : t = s ∨ Happens s t :=
  process_happens h (s.rejoin_processing)

theorem execStatus_happens (h : execStatus s = .next t) : t = s ∨ Happens s t :=
  process_happens h (.shown _)

theorem execView_happens {code index auto : Byte} (h : execView code index auto s = .next t) : t = s ∨ Happens s t :=
  process_happens h (s.view_processing code index auto)

theorem execRead_happens {count : Byte} (h : execRead count s = .next t) : t = s ∨ Happens s t :=
  process_happens h (s.read_processing _)

theorem execTake_happens {count : Byte} (h : execTake count s = .next t) : t = s ∨ Happens s t :=
  process_happens h (s.take_processing _)

theorem execTally_happens (h : execTally s = .next t) : t = s ∨ Happens s t :=
  process_happens h (.tallied _)

theorem execUnknown_happens {code : Byte} (h : execUnknown code s = .next t) : t = s ∨ Happens s t :=
  process_happens h (.denied _)

end Requests

section Plain

variable {s t : State}

theorem execPowerOn_happens {x : Straps} {b : Bool} (h : execPowerOn x b s = .next t) : t = s ∨ Happens s t :=
  (happening_cases h).imp_right fun ⟨_, e⟩ => e ▸ .hardReset x b

theorem execResetPin_happens {x : Straps} {b : Bool} (h : execResetPin x b s = .next t) : t = s ∨ Happens s t :=
  (happening_cases h).imp_right fun ⟨_, e⟩ => e ▸ .hardReset x b

theorem execTransactionTake_happens {bytes : List Byte} {cut : Bool} (h : execTransactionTake bytes cut s = .next t) : t = s ∨ Happens s t :=
  (happening_cases h).imp_right fun ⟨_, e⟩ => e ▸ .ssnRises bytes cut

theorem execStatusRead_happens {first : Byte} {cut : Bool} (h : execStatusRead first cut s = .next t) : t = s ∨ Happens s t :=
  (happening_cases h).imp_right fun ⟨_, e⟩ => e ▸ .ssnRises [first] cut

theorem execNop_happens (h : execNop s = .next t) : t = s ∨ Happens s t :=
  (happening_cases h).imp_right fun ⟨_, e⟩ => e ▸ .ssnRises [nopCode, 0] false

theorem execFetch_happens {window : List Byte} (h : execFetch window s = .next t) : t = s ∨ Happens s t :=
  (happening_cases h).imp_right fun ⟨_, e⟩ => e ▸ .ssnRises (fetchCode :: byteOf window.length :: window) false

theorem execListenTimerExpiry_happens (h : execListenTimerExpiry s = .next t) : t = s ∨ Happens s t :=
  (happening_cases h).imp_right fun ⟨on, e⟩ => e ▸ .listenExpires (by simp at on; exact on.2)

theorem execBeatTimerExpiry_happens (h : execBeatTimerExpiry s = .next t) : t = s ∨ Happens s t :=
  (happening_cases h).imp_right fun ⟨on, e⟩ => e ▸ .beatExpires (by simp at on; exact on.2)

theorem execCatchupWaitExpiry_happens (h : execCatchupWaitExpiry s = .next t) : t = s ∨ Happens s t :=
  (happening_cases h).imp_right fun ⟨on, e⟩ => e ▸ .catchupWaitExpires (by simp at on; exact on.2)

theorem execHoldTimerExpiry_happens {tag : Tag} (h : execHoldTimerExpiry tag s = .next t) : t = s ∨ Happens s t :=
  (happening_cases h).imp_right fun ⟨_, e⟩ => e ▸ .holdExpires tag

theorem execHostCheckExpiry_happens (h : execHostCheckExpiry s = .next t) : t = s ∨ Happens s t :=
  (happening_cases h).imp_right fun ⟨_, e⟩ => e ▸ .hostCheckExpires

theorem execIdleTimerExpiry_happens (h : execIdleTimerExpiry s = .next t) : t = s ∨ Happens s t :=
  (happening_cases h).imp_right fun ⟨on, e⟩ => e ▸ .idleTimerExpires (by simp at on; exact on.2)

theorem execQualificationExpiry_happens {line : LineNo} (h : execQualificationExpiry line s = .next t) : t = s ∨ Happens s t :=
  (happening_cases h).imp_right fun ⟨_, e⟩ => e ▸ .zoneLinesMove _

theorem execReleaseEdge_happens {zone : Nat} (h : execReleaseEdge zone s = .next t) : t = s ∨ Happens s t :=
  (happening_cases h).imp_right fun ⟨_, e⟩ => e ▸ .edgeArrives _ zone

theorem execSsnFallingEdge_happens (h : execSsnFallingEdge s = .next t) : t = s ∨ Happens s t :=
  (happening_cases h).imp_right fun ⟨on, e⟩ => e ▸ .ssnFalls (by simp at on; exact on.2)

theorem execResetPinAsserted_happens (h : execResetPinAsserted s = .next t) : t = s ∨ Happens s t :=
  (happening_cases h).imp_right fun ⟨_, e⟩ => e ▸ .cutOff _

theorem execPowerLoss_happens (h : execPowerLoss s = .next t) : t = s ∨ Happens s t :=
  (happening_cases h).imp_right fun ⟨_, e⟩ => e ▸ .cutOff _

end Plain

/-- Every command changes nothing or does one of the things that can happen. -/
theorem exec_happens {c : Instr} {s t : State} (h : exec c s = .next t) : t = s ∨ Happens s t := by
  cases c with
  | powerOn straps ssnHigh => exact execPowerOn_happens h
  | resetPin straps ssnHigh => exact execResetPin_happens h
  | transactionTake bytes cut => exact execTransactionTake_happens h
  | statusRead first cut => exact execStatusRead_happens h
  | nop => exact execNop_happens h
  | fetch window => exact execFetch_happens h
  | setup body => exact execSetup_happens h
  | start => exact execStart_happens h
  | restart => exact execRestart_happens h
  | ask flags lo hi units hold => exact execAsk_happens h
  | free tag => exact execFree_happens h
  | cancel tag => exact execCancel_happens h
  | surrender => exact execSurrender_happens h
  | depart => exact execDepart_happens h
  | rejoin => exact execRejoin_happens h
  | status => exact execStatus_happens h
  | view code index auto => exact execView_happens h
  | read count => exact execRead_happens h
  | take count => exact execTake_happens h
  | tally => exact execTally_happens h
  | unknown code => exact execUnknown_happens h
  | lineSettled levels => exact execLineSettled_happens h
  | lineFrameStart levels => exact execLineFrameStart_happens h
  | attemptStart bits => exact execAttemptStart_happens h
  | attemptLost levels => exact execAttemptLost_happens h
  | attemptFault levels => exact execAttemptFault_happens h
  | frameBroken levels => exact execFrameBroken_happens h
  | frameEnd levels => exact execFrameEnd_happens h
  | frameOutcome others => exact execFrameOutcome_happens h
  | ownFrameOutcome levels => exact execOwnFrameOutcome_happens h
  | snapSent levels => exact execSnapSent_happens h
  | listenTimerExpiry => exact execListenTimerExpiry_happens h
  | beatTimerExpiry => exact execBeatTimerExpiry_happens h
  | absenceTimerExpiry n => exact execAbsenceTimerExpiry_happens h
  | catchupWaitExpiry => exact execCatchupWaitExpiry_happens h
  | holdTimerExpiry tag => exact execHoldTimerExpiry_happens h
  | hostCheckExpiry => exact execHostCheckExpiry_happens h
  | idleTimerExpiry => exact execIdleTimerExpiry_happens h
  | lineStuck levels => exact execLineStuck_happens h
  | lineClear levels => exact execLineClear_happens h
  | releaseInPinChange line high => exact execReleaseInPinChange_happens h
  | qualificationExpiry line => exact execQualificationExpiry_happens h
  | releaseEdge zone => exact execReleaseEdge_happens h
  | ssnFallingEdge => exact execSsnFallingEdge_happens h
  | resetPinAsserted => exact execResetPinAsserted_happens h
  | powerLoss => exact execPowerLoss_happens h

/-! ### What a step can do (log 2) -/

/-- What a step keeps: it is not about the waiting queue, every happening keeps it, and so does a bit time that passes
with nothing due. -/
theorem step_keeps {I : State → Prop} {s t : State} (h : step s = .next t) (holds : I s)
    (queue : ∀ q, I s → I { s with pending := q }) (happens : ∀ u v, I u → Happens u v → I v)
    (bitTime : s.dueNow = [] → I s → I s.bitTime) : I t := by
  have command {c : Instr} {u : State} (hc : exec c u = .next t) (hu : I u) : I t :=
    (exec_happens hc).elim (fun e => e ▸ hu) (happens u t hu)
  unfold step at h
  split at h
  · exact command h (queue _ holds)
  · unfold State.idleStep at h
    split at h
    · split at h
      · next due => cases h; exact bitTime due holds
      · exact command h holds
    · cases h; exact holds

end Sys2Proof.Machine

/-! # The bounds that every step keeps: the event queue (R189, R193) -/

namespace Sys2Proof.Machine

/-! ### The port's event queue -/

/-- From the port `p` to the port `q` the depth of the event queue, the idle flag and the idle timer stay in order. -/
structure Port.KeepsQueue (p q : Port) : Prop where
  events :
    (p.events.length ≤ Config.maxEvents ∧
      (p.events.length = Config.maxEvents → p.events.getLast?.map Event.kind = some .overflow)) →
    q.events.length ≤ Config.maxEvents ∧
      (q.events.length = Config.maxEvents → q.events.getLast?.map Event.kind = some .overflow)
  idle :
    ((p.idleFlag = true → p.events ≠ [] ∧ p.idleTimer = .stopped) ∧ (p.idleTimer.isRunning = true → p.events ≠ [])) →
    (q.idleFlag = true → q.events ≠ [] ∧ q.idleTimer = .stopped) ∧ (q.idleTimer.isRunning = true → q.events ≠ [])

@[simp] theorem Port.KeepsQueue.refl (p : Port) : p.KeepsQueue p := ⟨id, id⟩

theorem Port.KeepsQueue.trans {p q r : Port} (first : p.KeepsQueue q) (second : q.KeepsQueue r) : p.KeepsQueue r :=
  ⟨second.events ∘ first.events, second.idle ∘ first.idle⟩

/-- What leaves queue, flag and timer alone keeps them in order. -/
theorem Port.KeepsQueue.of_same {p q r : Port} (h : p.KeepsQueue q) (events : r.events = q.events)
    (flag : r.idleFlag = q.idleFlag) (timer : r.idleTimer = q.idleTimer) : p.KeepsQueue r := by
  refine ⟨?_, ?_⟩
  · rw [events]; exact h.events
  · rw [events, flag, timer]; exact h.idle

/-- R189: counting a lost event in the newest record leaves its kind. -/
theorem bumpNewest_getLast?_kind (q : List Event) :
    (bumpNewest q).getLast?.map Event.kind = q.getLast?.map Event.kind := by
  fun_induction bumpNewest q with
  | case1 => rfl
  | case2 => rfl
  | case3 e e' rest ih =>
    have nonempty : bumpNewest (e' :: rest) ≠ [] := by
      rw [← List.length_pos_iff, bumpNewest_length]
      exact Nat.succ_pos _
    rw [List.getLast?_cons_of_ne_nil nonempty, ih]
    rfl

/-- R189: an append keeps the depth within 32, with an OVERFLOW record last at 32. -/
theorem Port.append_events_ok (p : Port) (timeout : Nat) (e : Event) (depth : p.events.length ≤ Config.maxEvents)
    (last : p.events.length = Config.maxEvents → p.events.getLast?.map Event.kind = some .overflow) :
    (p.append timeout e).events.length ≤ Config.maxEvents ∧
      ((p.append timeout e).events.length = Config.maxEvents →
        (p.append timeout e).events.getLast?.map Event.kind = some .overflow) := by
  have max : Config.maxEvents = 32 := rfl
  rw [max] at *
  obtain ⟨below, appended⟩ | ⟨full, overflow⟩ | ⟨beyond, counted⟩ := p.append_cases timeout e
  · rw [appended, List.length_append]
    exact ⟨by simp; omega, fun h => absurd h (by simp; omega)⟩
  · rw [overflow]
    exact ⟨by simp [full], fun _ => by simp⟩
  · rw [counted, bumpNewest_length, bumpNewest_getLast?_kind]
    exact ⟨depth, last⟩

/-- An append leaves an event in the queue. -/
theorem Port.append_events_ne_nil (p : Port) (timeout : Nat) (e : Event) : (p.append timeout e).events ≠ [] := by
  obtain ⟨-, appended⟩ | ⟨-, overflow⟩ | ⟨beyond, counted⟩ := p.append_cases timeout e
  · simp [appended]
  · simp [overflow]
  · rw [counted, ← List.length_pos_iff, bumpNewest_length]
    omega

/-- R193: an append to a queue that is not empty leaves the idle timer. -/
theorem Port.append_idleTimer_of_ne_nil (p : Port) (timeout : Nat) (e : Event) (some_ : p.events ≠ []) :
    (p.append timeout e).idleTimer = p.idleTimer := by
  simp only [Port.append]
  split
  · simp [some_]
  · split <;> rfl

@[simp] theorem Port.KeepsQueue.append {p q : Port} (h : p.KeepsQueue q) (timeout : Nat) (e : Event) :
    p.KeepsQueue (q.append timeout e) := by
  refine h.trans ⟨fun ⟨depth, last⟩ => q.append_events_ok timeout e depth last, fun ⟨flag, _⟩ => ?_⟩
  refine ⟨fun set => ⟨q.append_events_ne_nil timeout e, ?_⟩, fun _ => q.append_events_ne_nil timeout e⟩
  rw [Port.append_idleFlag] at set
  obtain ⟨nonempty, stopped⟩ := flag set
  rw [q.append_idleTimer_of_ne_nil timeout e nonempty, stopped]

/-- R191, R193: a TAKE removes from the front and sets flag and timer anew. -/
theorem Port.KeepsQueue.take (p : Port) (timeout count : Nat) :
    p.KeepsQueue (Port.idleAfterTake { p with events := p.events.drop count } timeout) := by
  have sameEvents : (Port.idleAfterTake { p with events := p.events.drop count } timeout).events =
      p.events.drop count := by
    unfold Port.idleAfterTake
    repeat' split
    all_goals rfl
  refine ⟨fun ⟨depth, last⟩ => ?_, fun ⟨flag, _⟩ => ?_⟩
  · rw [sameEvents, List.length_drop]
    refine ⟨by omega, fun full => ?_⟩
    have none_gone : p.events.drop count = p.events := by
      have : count = 0 ∨ p.events = [] := by
        rcases Nat.eq_zero_or_pos count with h | h
        · exact .inl h
        · exact .inr (List.length_eq_zero_iff.1 (by have : Config.maxEvents = 32 := rfl; omega))
      obtain rfl | empty := this
      · rfl
      · simp [empty]
    rw [none_gone]
    exact last (by omega)
  · rw [sameEvents]
    simp only [Port.idleAfterTake]
    split
    · exact ⟨nofun, nofun⟩
    · next nonempty =>
      have left : p.events.drop count ≠ [] := by simpa using nonempty
      refine ⟨fun set => ⟨left, ?_⟩, fun _ => left⟩
      split at set
      · next clear => simp at set clear; simp [clear.1] at set
      · next clear =>
        rw [if_neg clear]
        exact (flag set).2

/-- R193: an accepted SETUP starts or stops the idle timer by the queue and the flag. -/
theorem Port.KeepsQueue.newIdleTimeout (p : Port) (timeout : Nat) : p.KeepsQueue (p.newIdleTimeout timeout) := by
  unfold Port.newIdleTimeout
  split
  · exact ⟨id, fun ⟨flag, _⟩ => ⟨fun set => ⟨(flag set).1, rfl⟩, nofun⟩⟩
  · split
    · next h =>
      simp only [Bool.and_eq_true, Bool.not_eq_true', List.isEmpty_eq_false_iff] at h
      exact ⟨id, fun _ => ⟨fun set => absurd set (by simp [h.2]), fun _ => h.1⟩⟩
    · exact .refl p

/-- What a transaction's end does to the port leaves the event queue. -/
theorem Port.take_queue (p : Port) (response : Option (List Byte)) (bytes : List Byte) (cut : Bool) :
    (p.take response bytes cut).events = p.events ∧ (p.take response bytes cut).idleFlag = p.idleFlag ∧
      (p.take response bytes cut).idleTimer = p.idleTimer := by
  match bytes with
  | [] => exact ⟨rfl, rfl, rfl⟩
  | [_] => exact ⟨rfl, rfl, rfl⟩
  | code :: len :: body =>
    obtain h | h | ⟨_, h⟩ | ⟨_, _, h⟩ | ⟨_, _, h⟩ := p.take_cases response code len body cut <;> rw [h] <;>
      exact ⟨rfl, rfl, rfl⟩

theorem Port.clearShown_queue (p : Port) (status : Byte) (bytes : List Byte) :
    (p.clearShown status bytes).events = p.events ∧ (p.clearShown status bytes).idleFlag = p.idleFlag ∧
      (p.clearShown status bytes).idleTimer = p.idleTimer := by
  unfold Port.clearShown
  split <;> exact ⟨rfl, rfl, rfl⟩

theorem Port.KeepsQueue.ssnRises (s : State) (bytes : List Byte) (cut : Bool) :
    s.port.KeepsQueue (s.ssnRises bytes cut).port := by
  unfold State.ssnRises
  split
  · exact .refl _
  · exact (Port.KeepsQueue.refl s.port).of_same rfl rfl rfl
  · next status response _ =>
    dsimp only
    generalize hp : Port.clearShown _ status bytes = p
    have shown := Port.clearShown_queue
      { s.port with spi := .ready, sdo := shiftOut status (Config.freeByte s.freeCount) response bytes } status bytes
    rw [hp] at shown
    have taken := p.take_queue response bytes cut
    exact (Port.KeepsQueue.refl s.port).of_same (taken.1.trans shown.1) (taken.2.1.trans shown.2.1)
      (taken.2.2.trans shown.2.2)

/-! ### The slot unit's operations only append and count -/

/-- R147, step 2: a removed record settles its slot, or is none of this station's business. -/
theorem settleRemoved_cases (s : State) (f : Frame) (own : Bool) (r : Record) :
    State.settleRemoved f own s r = s ∨ State.settleRemoved f own s r = s.ownRemoved r.tag f.seq :=
  (ite_eq_or_eq _ _ _).symm

/-- R147, step 3: a granted record settles its slot, or is none of this station's business. -/
theorem settleGrant_cases (s : State) (f : Frame) (own : Bool) (g : StationNo × Tag) :
    State.settleGrant f own s g = s ∨ State.settleGrant f own s g = s.ownGrant g.2 f.seq :=
  (ite_eq_or_eq _ _ _).symm

section SlotUnit

variable {p : Port} {s : State} (h : p.KeepsQueue s.port)
include h

theorem keepsQueue_bump (n : Counter) : p.KeepsQueue (s.bump n).port := h.of_same rfl rfl rfl

theorem keepsQueue_freeWith (t : Tag) (k : EventKind) (c : Cause) (q : Option Seq) :
    p.KeepsQueue (s.freeWith t k c q).port := h.append _ _

theorem keepsQueue_freeSlot (t : Tag) (c : ReleaseCause) : p.KeepsQueue (s.freeSlot t c).1.port := by
  simp only [State.freeSlot]
  repeat' split
  all_goals apply_rules [h, Port.KeepsQueue.append]

theorem keepsQueue_cancelSlot (t : Tag) : p.KeepsQueue (s.cancelSlot t).1.port := by
  simp only [State.cancelSlot]
  repeat' split
  all_goals apply_rules [h, Port.KeepsQueue.append]

/-- A fold of steps that each keep the queue in order keeps it in order. -/
theorem keepsQueue_foldl {α : Type} (f : State → α → State)
    (keeps : ∀ s a, p.KeepsQueue s.port → p.KeepsQueue (f s a).port) (l : List α) :
    p.KeepsQueue (l.foldl f s).port := by
  induction l generalizing s with
  | nil => exact h
  | cons a l ih => exact ih (keeps s a h)

theorem keepsQueue_giveUp (c : ReleaseCause) (t : Tag) : p.KeepsQueue (State.giveUp c s t).port :=
  keepsQueue_freeSlot h t c

theorem keepsQueue_surrender : p.KeepsQueue s.surrender.port :=
  keepsQueue_foldl h _ (fun _ t hs => keepsQueue_giveUp hs .surrender t) _

theorem keepsQueue_releaseZone (z : Nat) : p.KeepsQueue (s.releaseZone z).port := by
  unfold State.releaseZone
  split
  · exact keepsQueue_giveUp h _ _
  · exact keepsQueue_bump h _

theorem keepsQueue_claimUnsent (t : Tag) : p.KeepsQueue (s.claimUnsent t).port := by
  unfold State.claimUnsent
  split <;> apply_rules [h, Port.KeepsQueue.append]

theorem keepsQueue_withdrawUnsent (t : Tag) : p.KeepsQueue (s.withdrawUnsent t).port := by
  simp only [State.withdrawUnsent]
  repeat' split
  all_goals apply_rules [h, Port.KeepsQueue.append]

theorem keepsQueue_entryUnsent (id : Nat) : p.KeepsQueue (s.entryUnsent id).port := by
  unfold State.entryUnsent
  repeat' split
  all_goals apply_rules [h, keepsQueue_claimUnsent, keepsQueue_withdrawUnsent]

theorem keepsQueue_ownClaimTaken (t : Tag) (out : ClaimOutcome) (granted : Bool) (q : Seq) :
    p.KeepsQueue (s.ownClaimTaken t out granted q).port := by
  simp only [State.ownClaimTaken]
  repeat' split
  all_goals apply_rules [h, Port.KeepsQueue.append]

theorem keepsQueue_ownWithdrawTaken (t : Tag) (out : TagOutcome) (granted : Option Seq) (q : Seq) :
    p.KeepsQueue (s.ownWithdrawTaken t out granted q).port := by
  simp only [State.ownWithdrawTaken]
  repeat' split
  all_goals apply_rules [h, Port.KeepsQueue.append]

theorem keepsQueue_ownGrant (t : Tag) (q : Seq) : p.KeepsQueue (s.ownGrant t q).port := by
  simp only [State.ownGrant]
  repeat' split
  all_goals apply_rules [h, Port.KeepsQueue.append]

theorem keepsQueue_ownRemoved (t : Tag) (q : Seq) : p.KeepsQueue (s.ownRemoved t q).port := by
  unfold State.ownRemoved
  repeat' split
  all_goals apply_rules [h, Port.KeepsQueue.append]

theorem keepsQueue_settleOwn (f : Frame) (rep : Report) (entry : Option Tag) :
    p.KeepsQueue (s.settleOwn f rep entry).port := by
  unfold State.settleOwn State.ownReleaseTaken
  repeat' split
  all_goals apply_rules [h, keepsQueue_ownClaimTaken, keepsQueue_ownWithdrawTaken, keepsQueue_freeWith]

theorem keepsQueue_settleReport (f : Frame) (own : Bool) (entry : Option Tag) (rep : Report) :
    p.KeepsQueue (s.settleReport f own entry rep).port := by
  unfold State.settleReport
  refine keepsQueue_foldl (keepsQueue_foldl ?own _ (fun s r hs => ?removed) _) _ (fun s g hs => ?granted) _
  case own =>
    split
    · exact keepsQueue_settleOwn h f rep entry
    · exact h
  case removed =>
    obtain stays | removed := settleRemoved_cases s f own r
    · rwa [stays]
    · exact removed ▸ keepsQueue_ownRemoved hs _ _
  case granted =>
    obtain stays | granted := settleGrant_cases s f own g
    · rwa [stays]
    · exact granted ▸ keepsQueue_ownGrant hs _ _

theorem keepsQueue_revalidateSlot (base : Seq) (t : Tag) : p.KeepsQueue (State.revalidateSlot base s t).port := by
  simp only [State.revalidateSlot]
  repeat' split
  all_goals apply_rules [h, Port.KeepsQueue.append]

theorem keepsQueue_revalidate (base : Seq) : p.KeepsQueue (s.revalidate base).port :=
  keepsQueue_foldl h _ (fun _ t hs => keepsQueue_revalidateSlot hs base t) _

theorem keepsQueue_clearSlots (k : EventKind) (c : Cause) (q : Option Seq) :
    p.KeepsQueue (s.clearSlots k c q).port := by
  have told : p.KeepsQueue (tags.foldl (State.clearEvent k c q) s).port := by
    refine keepsQueue_foldl h _ (fun s t hs => ?_) _
    unfold State.clearEvent
    split
    · exact hs
    · exact hs.append _ _
  unfold State.clearSlots
  generalize tags.foldl (State.clearEvent k c q) s = u at told ⊢
  exact told

end SlotUnit

end Sys2Proof.Machine

/-! # What the steps of an application leave alone (R45) -/

namespace Sys2Proof.Machine

/-- From `s` to `t` roster, presence timers and port alone have changed. -/
def State.SameButRoster (s t : State) : Prop := t = { s with roster := t.roster, pres := t.pres, port := t.port }

namespace State.SameButRoster

theorem refl (s : State) : s.SameButRoster s := rfl

theorem trans {s t u : State} (first : s.SameButRoster t) (second : t.SameButRoster u) : s.SameButRoster u := by
  unfold State.SameButRoster at *
  rw [second, first]

theorem emit (s : State) (e : Event) : s.SameButRoster (s.emit e) := rfl

theorem bump (s : State) (c : Counter) : s.SameButRoster (s.bump c) := rfl

theorem removePeer (s : State) (x : StationNo) : s.SameButRoster (s.removePeer x) := rfl

theorem admitPeer (s : State) (x : StationNo) (q : Seq) : s.SameButRoster (s.admitPeer x q) := rfl

section Fields

variable {s t : State} (h : s.SameButRoster t)
include h

theorem power : t.power = s.power := by rw [h]
theorem cfg : t.cfg = s.cfg := by rw [h]
theorem line : t.line = s.line := by rw [h]
theorem order : t.order = s.order := by rw [h]
theorem table : t.table = s.table := by rw [h]
theorem mem : t.mem = s.mem := by rw [h]
theorem cu : t.cu = s.cu := by rw [h]
theorem slots : t.slots = s.slots := by rw [h]
theorem zl : t.zl = s.zl := by rw [h]

end Fields

end State.SameButRoster

section Membership

variable (s : State)

theorem applyJoin_sameButRoster (x : StationNo) (d : Half) (own : Bool) (q : Seq) :
    s.SameButRoster (s.applyJoin x d own q).1 := by
  simp only [State.applyJoin]
  repeat' split
  all_goals rfl

theorem applyLeave_sameButRoster (x : StationNo) (own : Bool) (q : Seq) :
    s.SameButRoster (s.applyLeave x own q).1 := by
  simp only [State.applyLeave]
  repeat' split
  all_goals rfl

theorem applyEvict_sameButRoster (y : StationNo) (target : Byte) (q : Seq) :
    s.SameButRoster (s.applyEvict y target q).1 := by
  simp only [State.applyEvict]
  repeat' split
  all_goals rfl

theorem applyKind_sameButRoster (f : Frame) (own : Bool) : s.SameButRoster (s.applyKind f own).1 := by
  unfold State.applyKind
  split
  · exact applyJoin_sameButRoster s _ _ _ _
  · exact applyLeave_sameButRoster s _ _ _
  · exact applyEvict_sameButRoster s _ _ _
  all_goals rfl

/-- R45 step 4: the membership effect is on roster, presence timers and events. -/
theorem membershipStep_sameButRoster (f : Frame) (own : Bool) : s.SameButRoster (s.membershipStep f own).1 := by
  have recorded : s.SameButRoster { s with roster := s.roster.recordTaken f.sender f.seq } := rfl
  have applied := recorded.trans (applyKind_sameButRoster _ f own)
  simp only [State.membershipStep]
  split
  · exact applied.trans (.emit _ _)
  · exact applied

end Membership

/-! ### An application, step by step (R45) -/

section Application

variable (s : State) (f : Frame) (own : Bool)

/-- R45 steps 1 to 3: the frame is recorded, and applied at the table. -/
def State.afterTable : State :=
  { s with
    order := { s.order with expected := f.seq + 1, lastHeard := some f.seq }
    table := (s.table.apply s.cfg s.roster.isMember f).1 }

/-- R9: the report of the application at the table. -/
def State.reportOf : Report := (s.table.apply s.cfg s.roster.isMember f).2

/-- R45 step 4: the membership effect, and the move it asks for. -/
def State.afterMembership : State × Move := (s.afterTable f).membershipStep f own

/-- The move that the application makes. -/
def State.moveOf : Move := (s.afterMembership f own).2

/-- R76, R77: the move has been made. -/
def State.afterMove : State := (s.afterMembership f own).1.makeMove (s.moveOf f own) f.seq

/-- R102: an own frame that has been taken reloads the beat timer. -/
def State.reload : State := if own then { s with pres := s.pres.ownFrameTaken s.cfg.beatInterval } else s

/-- R45 step 6: the slots have been settled. -/
def State.afterSlots (entry : Option Tag) : State :=
  ((s.afterMove f own).reload own).settleSlots (s.moveOf f own) f own entry (s.reportOf f)

/-- R45: an application is its steps in turn. -/
theorem applyFrame_eq (live : Bool) (entry : Option Tag) :
    s.applyFrame live own entry f =
      if live then (s.afterSlots f own entry).lastStep f own s.fingerprint else s.afterSlots f own entry := rfl

end Application

/-! ### An own attempt that was not taken, step by step (R64 to R66) -/

/-- R66: what the source of an own attempt does about the outcome VETOED or FAULT. -/
def State.sourceTold (s : State) (a : Attempt) (fault : Bool) : State :=
  match a.source with
  | .queue id _ => s.entryUnsent id
  | .found => if fault then s else if s.mem.state = .founding then s.foundVetoed else s
  | .syncreq => if s.order.step = .behind then s.syncreqUnsent else s
  | .leave | .evict _ | .snap _ | .join | .beat => s

/-- R49, R66: the source is told, and then the own-frame run counts. -/
theorem ownUnsent_eq (s : State) (a : Attempt) (fault : Bool) :
    s.ownUnsent a fault =
      let told := (s.bump .ownVetoed).sourceTold a fault
      if s.order.step = .inStep ∧ told.order.step = .inStep ∧ a.source ≠ .syncreq ∧ a.source ≠ .found then
        told.countOwnVeto
      else told := rfl

end Sys2Proof.Machine

/-! # The bounds that every step keeps: runs, queues and serves (R31, R114, R117, R121, R134) -/

namespace Sys2Proof.Machine

/-- From `r` to `s` the runs, the catch-up unit's queues, the serve with its buffer and the event queue stay in order. -/
structure State.Keeps (r s : State) : Prop where
  bounds : r.boundsOk → s.boundsOk
  serving : r.servingOk → s.servingOk
  queue : r.port.KeepsQueue s.port

@[simp] theorem Timer.tick_isRunning (x : Timer) : x.tick.isRunning = x.isRunning := by cases x <;> rfl

namespace State.Keeps

variable {r s t : State}

theorem refl (s : State) : s.Keeps s := ⟨id, id, .refl _⟩

/-- What leaves order tracker and catch-up unit alone keeps their bounds. -/
theorem of_same (h : r.Keeps s) (order : t.order = s.order) (cu : t.cu = s.cu) (queue : r.port.KeepsQueue t.port) :
    r.Keeps t := by
  refine ⟨fun hr => ?_, fun hr => ?_, queue⟩
  · have := h.bounds hr
    rwa [State.boundsOk, order, cu]
  · have := h.serving hr
    rwa [State.servingOk, order, cu]

/-- What the slot unit does keeps them. -/
theorem of_slotRest (h : r.Keeps s) (same : t.slotRest = s.slotRest) (queue : r.port.KeepsQueue t.port) : r.Keeps t :=
  h.of_same (congrArg SlotRest.order same) (congrArg SlotRest.cu same) queue

/-- A catch-up unit at rest, with the runs at 0, is within its bounds. -/
theorem of_idle (rx : t.order.rxRun = 0) (own : t.order.ownRun = 0) (cu : t.cu = CatchUp.idle)
    (queue : r.port.KeepsQueue t.port) : r.Keeps t := by
  refine ⟨fun _ => ?_, fun _ => ?_, queue⟩
  · rw [State.boundsOk, rx, own, cu]
    decide
  · rw [State.servingOk, cu]
    exact ⟨fun _ => ⟨rfl, rfl⟩, Iff.rfl⟩

theorem emit (h : r.Keeps s) (e : Event) : r.Keeps (s.emit e) := h.of_same rfl rfl (h.queue.append _ _)

theorem bump (h : r.Keeps s) (c : Counter) : r.Keeps (s.bump c) := h.of_same rfl rfl (keepsQueue_bump h.queue c)

theorem clearSlots (h : r.Keeps s) (k : EventKind) (c : Cause) (q : Option Seq) : r.Keeps (s.clearSlots k c q) :=
  h.of_slotRest (clearSlots_slotRest s k c q) (keepsQueue_clearSlots h.queue k c q)

theorem enterListening (h : r.Keeps s) (c : Cause) (q : Option Seq) : r.Keeps (s.enterListening c q) :=
  of_idle rfl rfl rfl (h.queue.append _ _)

theorem enterOut (h : r.Keeps s) (st : StationState) (c : Cause) (q : Option Seq) : r.Keeps (s.enterOut st c q) :=
  of_idle rfl rfl rfl (h.queue.append _ _)

theorem enterJoining (h : r.Keeps s) (join : Bool) (c : Cause) (q : Option Seq) : r.Keeps (s.enterJoining join c q) := by
  simp only [State.enterJoining]
  split
  · exact h.of_same rfl rfl h.queue
  · exact h.of_same rfl rfl (h.queue.append _ _)

theorem enterMember (h : r.Keeps s) (c : Cause) (q : Option Seq) : r.Keeps (s.enterMember c q) :=
  h.of_same rfl rfl (h.queue.append _ _)

theorem enterBehind (h : r.Keeps s) : r.Keeps s.enterBehind := by
  unfold State.enterBehind
  split
  · exact h
  · refine ⟨fun _ => ?_, fun _ => ⟨fun _ => ⟨rfl, rfl⟩, Iff.rfl⟩, h.queue⟩
    exact ⟨Nat.zero_le _, Nat.zero_le _, Nat.succ_pos 2, Nat.succ_pos 2, Nat.zero_le _, Nat.zero_le _⟩

theorem record (h : r.Keeps s) (q : Seq) : r.Keeps (s.record q) := by
  unfold State.record
  split
  · exact ⟨h.bounds, h.serving, h.queue⟩
  · exact h

theorem heardFrom (h : r.Keeps s) (n : StationNo) : r.Keeps (s.heardFrom n) := by
  unfold State.heardFrom
  split
  · exact h.of_same rfl rfl h.queue
  · exact h

theorem restartListen (h : r.Keeps s) : r.Keeps s.restartListen := by
  unfold State.restartListen
  split
  · exact h.of_same rfl rfl h.queue
  · exact h

/-- R117: the hold-back queue stays within 16 frames. -/
theorem keepBack (h : r.Keeps s) (own : Bool) (f : Frame) (first : Bool) : r.Keeps (s.keepBack own f first) := by
  refine ⟨fun hr => ?_, h.serving, h.queue⟩
  obtain ⟨rx, ownRun, veto, attempts, held, serves⟩ := h.bounds hr
  exact ⟨rx, ownRun, veto, attempts, holdBackAppend_length _ _ held, serves⟩

theorem failAttempt (h : r.Keeps s) (c : Cause) : r.Keeps (s.failAttempt c) := by
  simp only [State.failAttempt]
  have counted := (h.emit { kind := .catchupFail, count := some (s.cu.attempts + 1), cause := some (.cause c) }).bump
    .attemptsFailed
  split
  · next again =>
    refine ⟨fun hr => ?_, counted.serving, counted.queue⟩
    obtain ⟨rx, ownRun, _, _, held, serves⟩ := counted.bounds hr
    exact ⟨rx, ownRun, Nat.succ_pos 2, again, held, serves⟩
  · exact (counted.enterOut _ _ _).clearSlots _ _ _

/-! ### Serves (R120 to R125) -/

/-- R121: a serve begins at a station in step. -/
theorem beginServe (h : r.Keeps s) (inStep : r.servingOk → s.order.step = .inStep) (n : StationNo) :
    r.Keeps (s.beginServe n) :=
  ⟨h.bounds, fun hr => ⟨fun out => absurd (inStep hr) out, by simp [State.beginServe]⟩, h.queue⟩

theorem startNextServe (h : r.Keeps s) : r.Keeps s.startNextServe := by
  unfold State.startNextServe
  split
  · next n rest _ waiting =>
    have shorter : r.Keeps { s with cu := { s.cu with serveList := rest } } := by
      refine ⟨fun hr => ?_, fun hr => ?_, h.queue⟩
      · obtain ⟨rx, ownRun, veto, attempts, held, serves⟩ := h.bounds hr
        rw [waiting, List.length_cons] at serves
        exact ⟨rx, ownRun, veto, attempts, held, by dsimp only; omega⟩
      · obtain ⟨out, buffer⟩ := h.serving hr
        exact ⟨fun o => absurd (out o).2 (by simp [waiting]), buffer⟩
    refine shorter.beginServe (fun hr => ?_) n
    by_contra out
    exact absurd ((h.serving hr).1 out).2 (by simp [waiting])
  · exact h

theorem serveRequest (h : r.Keeps s) (inStep : s.order.step = .inStep) (n : StationNo) : r.Keeps (s.serveRequest n) := by
  unfold State.serveRequest
  split
  · exact h.beginServe (fun _ => inStep) n
  · split
    · exact h.startNextServe
    · split
      · exact (h.bump _).startNextServe
      · next room =>
        refine startNextServe ⟨fun hr => ?_, fun hr => ?_, h.queue⟩
        · obtain ⟨rx, ownRun, veto, attempts, held, _⟩ := h.bounds hr
          exact ⟨rx, ownRun, veto, attempts, held, by simp; omega⟩
        · exact ⟨fun out => absurd inStep out, (h.serving hr).2⟩

theorem designate (h : r.Keeps s) (n : StationNo) : r.Keeps (s.designate n) := by
  unfold State.designate
  split
  · split
    · next named =>
      simp only [Bool.and_eq_true, decide_eq_true_eq] at named
      exact h.serveRequest named.2 n
    · exact h
  · exact h

theorem partSent (h : r.Keeps s) : r.Keeps s.partSent := by
  unfold State.partSent
  split
  · exact h
  · next v serving =>
    split
    · refine ⟨h.bounds, fun hr => ?_, h.queue⟩
      obtain ⟨out, buffer⟩ := h.serving hr
      exact ⟨fun o => absurd (out o).1 (by simp [serving]), by simpa [serving] using buffer⟩
    · have ended : r.Keeps { s with cu := { s.cu with serve := none, buffer := none } } :=
        ⟨h.bounds, fun hr => ⟨fun o => ⟨rfl, ((h.serving hr).1 o).2⟩, Iff.rfl⟩, h.queue⟩
      exact (ended.bump _).startNextServe

/-- R125: the serves are dropped. -/
theorem dropServes (h : r.Keeps s) : r.Keeps { s with cu := s.cu.dropServes } := by
  refine ⟨fun hr => ?_, fun _ => ⟨fun _ => ⟨rfl, rfl⟩, Iff.rfl⟩, h.queue⟩
  obtain ⟨rx, ownRun, veto, attempts, held, _⟩ := h.bounds hr
  exact ⟨rx, ownRun, veto, attempts, held, Nat.zero_le _⟩

/-! ### Application (R45) -/

theorem membershipStep (h : r.Keeps s) (f : Frame) (own : Bool) : r.Keeps (s.membershipStep f own).1 := by
  have same := membershipStep_sameButRoster s f own
  refine h.of_same same.order same.cu ?_
  simp only [State.membershipStep, State.applyKind, State.applyJoin, State.applyLeave, State.applyEvict]
  repeat' split
  all_goals apply_rules [h.queue, Port.KeepsQueue.append, keepsQueue_bump]

theorem makeMove (h : r.Keeps s) (m : Move) (q : Seq) : r.Keeps (s.makeMove m q) := by
  cases m with
  | stay => exact h
  | becomeMember =>
    have watching : r.Keeps { s with pres := s.pres.watchMembers s.roster s.mem.number s.cfg.absenceTime } :=
      h.of_same rfl rfl h.queue
    exact watching.enterMember _ _
  | loseMembership c => exact h.dropServes.enterJoining _ _ _
  | leaveGroup st c => exact h.enterOut _ _ _
  | dissolve => exact h.enterListening _ _

theorem reload (h : r.Keeps s) (own : Bool) : r.Keeps (s.reload own) := by
  unfold State.reload
  split
  · exact h.of_same rfl rfl h.queue
  · exact h

theorem settleSlots (h : r.Keeps s) (m : Move) (f : Frame) (own : Bool) (entry : Option Tag) (rep : Report) :
    r.Keeps (s.settleSlots m f own entry rep) := by
  have settled := h.of_slotRest (settleReport_slotRest s f own entry rep) (keepsQueue_settleReport h.queue f own entry rep)
  cases m with
  | stay => exact settled
  | becomeMember => exact settled
  | loseMembership c => exact h.clearSlots _ _ _
  | leaveGroup st c => exact h.clearSlots _ _ _
  | dissolve => exact h.clearSlots _ _ _

theorem compareFingerprint (h : r.Keeps s) (f : Frame) (own : Bool) (carried kept : Half) :
    r.Keeps (s.compareFingerprint f own carried kept) := by
  unfold State.compareFingerprint
  split
  · exact h
  · have counted := (h.emit { kind := .mismatch, station := some f.sender, seq := some f.seq }).bump .mismatches
    dsimp only
    split
    · exact counted.enterBehind
    · exact counted

theorem lastStep (h : r.Keeps s) (f : Frame) (own : Bool) (kept : Half) : r.Keeps (s.lastStep f own kept) := by
  unfold State.lastStep
  split
  · exact h.designate _
  · exact h.compareFingerprint _ _ _ _
  all_goals exact h

theorem applyFrame (h : r.Keeps s) (live own : Bool) (entry : Option Tag) (f : Frame) :
    r.Keeps (s.applyFrame live own entry f) := by
  have tabled : r.Keeps (s.afterTable f) := ⟨h.bounds, h.serving, h.queue⟩
  have moved : r.Keeps (s.afterMove f own) := (tabled.membershipStep f own).makeMove _ _
  have settled : r.Keeps (s.afterSlots f own entry) := (moved.reload own).settleSlots _ _ _ _ _
  rw [applyFrame_eq]
  split
  · exact settled.lastStep _ _ _
  · exact settled

/-! ### Install (R126 to R132) -/

theorem applyHeld (h : r.Keeps s) (x : Held) : r.Keeps (s.applyHeld x) := by
  unfold State.applyHeld
  split
  · exact h.applyFrame _ _ _ _
  · exact h

theorem foldl {α : Type} (f : State → α → State) (keeps : ∀ s a, r.Keeps s → r.Keeps (f s a)) (l : List α)
    (h : r.Keeps s) : r.Keeps (l.foldl f s) := by
  induction l generalizing s with
  | nil => exact h
  | cons a l ih => exact ih (keeps s a h)

theorem closeCatchUp (h : r.Keeps s) : r.Keeps s.closeCatchUp := by
  have closed : r.Keeps { s with cu := { s.cu with
      phase := .idle, syncreqPending := false, vetoRun := 0, attempts := 0, holdBack := [], wait := .stopped
      snapshot := none } } := by
    refine ⟨fun hr => ?_, h.serving, h.queue⟩
    obtain ⟨rx, ownRun, _, _, _, serves⟩ := h.bounds hr
    exact ⟨rx, ownRun, Nat.succ_pos 2, Nat.succ_pos 2, Nat.zero_le _, serves⟩
  unfold State.closeCatchUp
  dsimp only
  split
  · exact ⟨closed.bounds, closed.serving, closed.queue⟩
  · exact closed

theorem settleInstall (h : r.Keeps s) (base : Seq) : r.Keeps (s.settleInstall base) := by
  simp only [State.settleInstall]
  split
  · exact h.of_same rfl rfl h.queue
  · split
    · exact h.of_same rfl rfl h.queue
    · exact (h.dropServes.enterJoining _ _ _).clearSlots _ _ _
  · split
    · exact h
    · exact (h.enterOut _ _ _).clearSlots _ _ _
  all_goals exact h

theorem install (h : r.Keeps s) (sn : Snapshot) (t : Table) : r.Keeps (s.install sn t) := by
  have replaced : r.Keeps (s.replaceReplicated sn t) := by
    refine ⟨fun hr => ?_, fun hr => ⟨fun out => absurd rfl out, (h.serving hr).2⟩, h.queue⟩
    obtain ⟨_, _, veto, attempts, held, serves⟩ := h.bounds hr
    exact ⟨Nat.zero_le _, Nat.zero_le _, veto, attempts, held, serves⟩
  have closed := (replaced.foldl State.applyHeld (fun _ x hs => hs.applyHeld x) (heldAfter s.cu.holdBack sn.base)).closeCatchUp
  simp only [State.install]
  refine bump ?_ _
  split
  · have settled := closed.settleInstall sn.base
    split
    · exact settled.of_slotRest (revalidate_slotRest _ _) (keepsQueue_revalidate settled.queue _)
    · exact settled
  · exact closed

theorem attemptInstall (h : r.Keeps s) (sn : Snapshot) : r.Keeps (s.attemptInstall sn) := by
  unfold State.attemptInstall
  split
  · exact (h.enterOut _ _ _).clearSlots _ _ _
  · split
    · exact h.failAttempt _
    · split
      · exact h.failAttempt _
      · exact h.install _ _

theorem storeSnapshot (h : r.Keeps s) (sn : Snapshot) : r.Keeps (s.storeSnapshot sn) := by
  have stored : r.Keeps { s with cu := { s.cu with
      snapshot := some sn, phase := .receiving, wait := .running s.cfg.absenceTime } } := ⟨h.bounds, h.serving, h.queue⟩
  simp only [State.storeSnapshot]
  split
  · exact stored.attemptInstall _
  · exact stored

theorem hearSnap (h : r.Keeps s) (f : Frame) : r.Keeps (s.hearSnap f) := by
  simp only [State.hearSnap, State.snapHeader, State.snapRecord]
  repeat' split
  all_goals first | exact h | exact h.storeSnapshot _ | exact h.failAttempt _

/-! ### Outcomes (R39 to R43, R65, R66) -/

theorem castVote (h : r.Keeps s) (v : Vote) : r.Keeps (s.castVote v) := by
  unfold State.castVote
  split
  · exact h
  · have counted : r.Keeps
        { s with order := { s.order with rxRun := min (s.order.rxRun + 1) Config.rxRunLimit } } :=
      ⟨fun hr => ⟨Nat.min_le_right _ _, (h.bounds hr).2⟩, h.serving, h.queue⟩
    exact counted.bump _
  all_goals exact ⟨fun hr => ⟨Nat.zero_le _, (h.bounds hr).2⟩, h.serving, h.queue⟩

theorem adopt (h : r.Keeps s) (f : Frame) (d : Half) : r.Keeps (s.adopt f d) := by
  have adopted : r.Keeps (s.adoptGroup f.sender d f.seq) := of_idle rfl rfl rfl h.queue
  simp only [State.adopt]
  split
  · exact ((adopted.emit _).enterOut _ _ _).clearSlots _ _ _
  · split
    · exact (adopted.enterOut _ _ _).clearSlots _ _ _
    · exact (adopted.enterJoining _ _ _).clearSlots _ _ _
    all_goals exact adopted.enterJoining _ _ _

theorem hearTaken (h : r.Keeps s) (f : Frame) : r.Keeps (s.hearTaken f) := by
  unfold State.hearTaken
  split
  · exact h.adopt _ _
  · exact (h.enterJoining _ _ _).enterBehind.keepBack _ _ _

theorem taken (h : r.Keeps s) (f : Frame) (v : Vote) : r.Keeps (s.taken f v) := by
  have recorded := h.record f.seq
  unfold State.taken
  dsimp only
  split
  · split
    · exact h.applyFrame _ _ _ _
    · exact recorded.enterBehind.keepBack _ _ _
    all_goals exact recorded
  · split
    · exact recorded.adopt _ _
    · exact recorded.keepBack _ _ _
  · split
    · exact recorded.hearTaken _
    · exact recorded.hearTaken _
    all_goals exact recorded

theorem vetoed (h : r.Keeps s) (v : Vote) : r.Keeps (s.vetoed v) := by
  unfold State.vetoed
  repeat' split
  all_goals first | exact h | exact h.enterBehind

theorem outcomeHeard (h : r.Keeps s) (x : Received) (v : Vote) (b : Bool) : r.Keeps (s.outcomeHeard x v b) := by
  unfold State.outcomeHeard
  split
  · exact ((h.bump _).taken _ _).heardFrom _
  · exact (h.restartListen.vetoed _).heardFrom _
  · exact h
  · exact h.vetoed _

theorem countOwnVeto (h : r.Keeps s) : r.Keeps s.countOwnVeto := by
  have counted : r.Keeps { s with order := { s.order with ownRun := min (s.order.ownRun + 1) Config.ownRunLimit } } := by
    refine ⟨fun hr => ?_, h.serving, h.queue⟩
    obtain ⟨rx, _, rest⟩ := h.bounds hr
    exact ⟨rx, Nat.min_le_right _ _, rest⟩
  unfold State.countOwnVeto
  dsimp only
  split
  · exact counted.enterBehind
  · exact counted

theorem syncreqUnsent (h : r.Keeps s) : r.Keeps s.syncreqUnsent := by
  have counted (n : Nat) (few : n < Config.ownRunLimit) : r.Keeps { s with cu := { s.cu with vetoRun := n } } := by
    refine ⟨fun hr => ?_, h.serving, h.queue⟩
    obtain ⟨rx, ownRun, _, rest⟩ := h.bounds hr
    exact ⟨rx, ownRun, few, rest⟩
  unfold State.syncreqUnsent
  dsimp only
  split
  · next few => exact counted _ few
  · exact (counted 0 (by decide)).failAttempt _

theorem sourceTold (h : r.Keeps s) (a : Attempt) (fault : Bool) : r.Keeps (s.sourceTold a fault) := by
  unfold State.sourceTold
  repeat' split
  all_goals
    first
    | exact h
    | exact h.of_slotRest (entryUnsent_slotRest _ _) (keepsQueue_entryUnsent h.queue _)
    | exact (h.enterJoining _ _ _).enterBehind
    | exact h.syncreqUnsent

theorem ownUnsent (h : r.Keeps s) (a : Attempt) (fault : Bool) : r.Keeps (s.ownUnsent a fault) := by
  have told := (h.bump .ownVetoed).sourceTold a fault
  rw [ownUnsent_eq]
  dsimp only
  split
  · exact told.countOwnVeto
  · exact told

theorem ownLost (h : r.Keeps s) (a : Attempt) : r.Keeps (s.ownLost a) := by
  have counted := h.bump .arbitrationLosses
  unfold State.ownLost
  dsimp only
  split
  · exact counted.of_slotRest (entryUnsent_slotRest _ _) (keepsQueue_entryUnsent counted.queue _)
  all_goals exact counted

theorem leaveSource (h : r.Keeps s) (src : Source) : r.Keeps (s.leaveSource src) := by
  cases src <;> exact h.of_same rfl rfl h.queue

theorem foundTaken (h : r.Keeps s) (f : Frame) : r.Keeps (s.foundTaken f) := by
  unfold State.foundTaken
  split
  · exact h
  · next me _ =>
    have founded : r.Keeps { s with
        table := s.table.clear
        roster := { Roster.empty.add me f.seq with digest := some s.mem.ownDigest }
        order := s.order.toInStep (f.seq + 1) } := by
      refine ⟨fun hr => ?_, fun hr => ⟨fun out => absurd rfl out, (h.serving hr).2⟩, h.queue⟩
      obtain ⟨_, _, rest⟩ := h.bounds hr
      exact ⟨Nat.zero_le _, Nat.zero_le _, rest⟩
    exact founded.enterMember _ _

theorem syncreqTaken (h : r.Keeps s) (f : Frame) : r.Keeps (s.syncreqTaken f) := by
  have kept := h.keepBack true f false
  refine ⟨fun hr => ?_, kept.serving, kept.queue⟩
  obtain ⟨rx, ownRun, _, rest⟩ := kept.bounds hr
  exact ⟨rx, ownRun, Nat.succ_pos 2, rest⟩

theorem ownTaken (h : r.Keeps s) (a : Attempt) : r.Keeps (s.ownTaken a) := by
  have left := (h.bump .framesTaken).leaveSource a.source
  have cleared : r.Keeps { (s.bump .framesTaken).leaveSource a.source with
      order := { ((s.bump .framesTaken).leaveSource a.source).order with ownRun := 0 } } := by
    refine ⟨fun hr => ?_, left.serving, left.queue⟩
    obtain ⟨rx, _, rest⟩ := left.bounds hr
    exact ⟨rx, Nat.zero_le _, rest⟩
  simp only [State.ownTaken]
  split
  · exact cleared.applyFrame _ _ _ _
  · split
    · exact (cleared.record _).syncreqTaken _
    · exact cleared.record _
  · split
    · exact (cleared.record _).foundTaken _
    · exact cleared.record _

theorem deliverFault (h : r.Keeps s) (x : Option Faulted) : r.Keeps (s.deliverFault x) := by
  cases x with
  | none => exact h
  | some fa => exact h.ownUnsent _ _

/-- What moves the line interface alone keeps them. -/
theorem line (h : r.Keeps s) (l : LineIf) : r.Keeps { s with line := l } := h.of_same rfl rfl h.queue

theorem frameEnds (h : r.Keeps s) (x : Received) : r.Keeps (s.frameEnds x) := by
  cases x with
  | good f =>
    simp only [State.frameEnds]
    split
    · exact (((h.line _).hearSnap f).restartListen).heardFrom _
    · exact (h.line _).castVote _
  | failed => exact ((h.bump .checkFailures).line _).castVote _
  | malformed => exact ((h.bump .checkFailures).line _).castVote _

/-! ### Requests (R178) -/

theorem giveUp (h : r.Keeps s) (c : ReleaseCause) (t : Tag) : r.Keeps (State.giveUp c s t) :=
  h.of_slotRest (giveUp_slotRest s t c) (keepsQueue_giveUp h.queue c t)

theorem cancelSlot (h : r.Keeps s) (t : Tag) : r.Keeps (s.cancelSlot t).1 :=
  h.of_slotRest (cancelSlot_slotRest s t) (keepsQueue_cancelSlot h.queue t)

theorem surrender (h : r.Keeps s) : r.Keeps s.surrender :=
  h.of_slotRest (surrender_slotRest s) (keepsQueue_surrender h.queue)

theorem processing (h : r.Keeps s) {a : Answer} (answer : Processing s a) : r.Keeps a.state := by
  cases answer with
  | denied k => exact h
  | configured b _ _ _ => exact h.of_same rfl rfl (h.queue.trans (.newIdleTimeout _ _))
  | started _ =>
    have locks : r.Keeps { s with mem := { s.mem with locked := true } } := h.of_same rfl rfl h.queue
    have listening := locks.enterListening .start none
    dsimp only [State.startHostCheck]
    split
    · exact listening
    · exact listening.of_same rfl rfl listening.queue
  | restarted => exact of_idle rfl rfl rfl (h.queue.trans ⟨fun _ => ⟨Nat.zero_le _, nofun⟩, fun _ => ⟨nofun, nofun⟩⟩)
  | opened t zones units hold data => exact h.of_same rfl rfl h.queue
  | freed t => exact h.giveUp .host t
  | cancelled t => exact h.cancelSlot t
  | surrendered =>
    dsimp only
    exact h.surrender
  | departed _ => exact h.of_same rfl rfl (h.queue.append _ _)
  | rejoined _ => exact h.enterListening _ _
  | shown data => exact h
  | pointed cursor data => exact h.of_same rfl rfl (h.queue.of_same rfl rfl rfl)
  | took count data => exact h.of_same rfl rfl (h.queue.trans (.take _ _ _))
  | tallied data => exact h.of_same rfl rfl (h.queue.of_same rfl rfl rfl)

theorem processed (h : r.Keeps s) (touch : Bool) (code : Byte) {a : Answer} (answer : Processing s a) :
    r.Keeps ((if touch then a.state.touchHostCheck else a.state).respond code a.code a.data) := by
  have effect := h.processing answer
  cases touch <;> exact effect.of_same rfl rfl (effect.queue.of_same rfl rfl rfl)

theorem ssnRises (s : State) (bytes : List Byte) (cut : Bool) : s.Keeps (s.ssnRises bytes cut) := by
  refine (refl s).of_same ?_ ?_ (.ssnRises s bytes cut)
  all_goals
    unfold State.ssnRises
    split <;> rfl

/-! ### Every happening -/

theorem of_happens (happens : Happens s t) : s.Keeps t := by
  have h := refl s
  cases happens with
  | hardReset x b => exact of_idle rfl rfl rfl ⟨fun _ => ⟨Nat.zero_le _, nofun⟩, fun _ => ⟨nofun, nofun⟩⟩
  | cutOff p => exact h.of_same rfl rfl (h.queue.of_same rfl rfl rfl)
  | ssnFalls _ => exact h.of_same rfl rfl (h.queue.of_same rfl rfl rfl)
  | ssnRises bytes cut => exact ssnRises s bytes cut
  | processed touch code a answer => exact h.processed touch code answer
  | lineHears levels l _ _ => exact h.line _
  | lineSettles levels l _ _ => exact h.line _
  | lineSticks levels l _ _ => exact (h.line _).emit _
  | lineClears levels l _ _ => exact (h.line _).emit _
  | frameStarts levels _ _ => exact h.line _
  | attemptStarts a _ =>
    unfold State.startAttempt Order.countAttempt
    split
    · exact ⟨fun ⟨rx, _, rest⟩ => ⟨rx, Nat.zero_le _, rest⟩, id, h.queue⟩
    · exact h.line _
  | quietCounts bits _ => exact h.line _
  | attemptLost a levels read _ _ => exact (h.line _).ownLost a
  | attemptFaults a levels read _ _ => exact h.line _
  | frameBreaks _ => exact ((h.line _).bump _).deliverFault _
  | remainsEnd _ => exact h.line _
  | frameEnds x _ => exact h.frameEnds x
  | slotPasses _ => exact (h.line _).deliverFault _
  | outcome x v b _ => exact (((h.line _).outcomeHeard x v b).line _).deliverFault _
  | ownTaken a _ => exact (h.line _).ownTaken a
  | ownUnsent a _ => exact (h.line _).ownUnsent a false
  | partSent a _ =>
    have quiet : s.Keeps { s with line := s.line.toQuiet, order := { s.order with ownRunOf := none } } := ⟨id, id, h.queue⟩
    exact quiet.partSent
  | listenExpires _ => exact h.of_same rfl rfl (h.queue.append _ _)
  | beatExpires _ => exact h.of_same rfl rfl h.queue
  | evictFlagSets n _ _ => exact h.of_same rfl rfl h.queue
  | absenceRestarts n _ => exact h.of_same rfl rfl h.queue
  | catchupWaitExpires _ => exact h.failAttempt _
  | holdExpires k => exact (h.emit (slotEvent .holdExpired k none none)).giveUp .hold k
  | hostCheckExpires =>
    have given := (h.emit { kind := .hostSilent }).surrender
    dsimp only
    generalize (s.emit { kind := .hostSilent }).surrender = u at given ⊢
    exact given.of_same rfl rfl given.queue
  | idleTimerExpires running =>
    exact h.of_same rfl rfl ⟨id, fun ⟨_, timer⟩ => ⟨fun _ => ⟨timer running, rfl⟩, nofun⟩⟩
  | zoneLinesMove zl => exact h.of_same rfl rfl h.queue
  | edgeArrives zl z =>
    have moved : s.Keeps { s with zl := zl } := h.of_same rfl rfl h.queue
    exact moved.of_slotRest (releaseZone_slotRest _ z) (keepsQueue_releaseZone moved.queue z)

/-- 1 ms that passes leaves the event queue, and the idle timer stopped where it was. -/
theorem bitTime (s : State) : s.Keeps s.bitTime := by
  unfold State.bitTime
  split
  · refine ⟨id, id, ⟨id, fun ⟨flag, timer⟩ => ⟨fun set => ⟨(flag set).1, ?_⟩, fun running => timer ?_⟩⟩⟩
    · exact congrArg Timer.tick (flag set).2
    · exact (Timer.tick_isRunning _).symm.trans running
  · exact (refl s).line _

end State.Keeps

end Sys2Proof.Machine

/-! # The line interface agrees with itself (R52, R58, R63 to R65, R69) -/

namespace Sys2Proof.Machine

/-! ### The frame of an attempt in flight -/

/-- R197: a frame's levels and the two recessive ones of its slot make the whole of what its sender puts on the line. -/
theorem Frame.sent_length (f : Frame) : f.sent.length = f.levels.length + 2 := by simp [Frame.sent]

/-- What has been read back of an attempt that is not completed goes on as the station drives it. -/
theorem prefix_append_drive {read sent : List Bool} (sofar : read <+: sent) (more : read.length < sent.length) :
    read ++ [(sent[read.length]?).getD true] <+: sent := by
  obtain ⟨rest, rfl⟩ := sofar
  cases rest with
  | nil => simp at more
  | cons b rest => exact ⟨rest, by simp⟩

/-- R65: an attempt all of whose levels have been read back as sent is completed. -/
theorem LineIf.completes_of_read_sent {l : LineIf} {a : Attempt} (attempt : l.attempt = some a)
    (read : l.rx = some a.frame.sent) : ∃ x, l.completes [] = some x :=
  ⟨(a, true), (l.completes_iff [] a true).2
    ⟨attempt, true, true, by simp [LineIf.frameAfter, read, Frame.sent], rfl⟩⟩

/-- R52: the attempt that goes past the arbitration field is the same one. -/
theorem Transmitter.past_cases (x : Transmitter) (n : Nat) :
    x = .idle ∧ x.past n = .idle ∨
      (∃ a, (x = .offering a ∨ x = .sending a) ∧ x.past n = .sending a) ∨
      ∃ a, x = .offering a ∧ n < a.frame.arbitration ∧ x.past n = .offering a := by
  cases x with
  | idle => exact .inl ⟨rfl, rfl⟩
  | sending a => exact .inr (.inl ⟨a, .inr rfl, rfl⟩)
  | offering a =>
    simp only [Transmitter.past]
    split
    · exact .inr (.inl ⟨a, .inl rfl, rfl⟩)
    · exact .inr (.inr ⟨a, rfl, by omega, rfl⟩)

/-! ### The parts of the agreement -/

/-- `State.lineOk` is about the line interface and the rate in use. -/
def LineIf.agrees (l : LineIf) (bitsPerMs : Nat) : Prop :=
  (l.view = .frame ↔ l.rx ≠ none ∨ l.awaiting ≠ .nothing) ∧
  (l.awaiting ≠ .nothing → l.rx = none) ∧
  (l.faulted ≠ none → l.view = .frame ∧ l.tx = .idle) ∧
  (∀ a ∈ l.attempt, ∃ read ∈ l.rx, read.isPrefixOf a.frame.sent = true ∧
    (l.tx = .offering a ↔ read.length < a.frame.arbitration)) ∧
  (l.stuck = true ↔ l.view = .stuck) ∧
  l.quietBits ≤ Config.idleGap ∧ l.dominantBits ≤ 65 ∧ (l.quietBits = 0 ∨ l.dominantBits = 0) ∧
  (l.view = .quiet ∨ l.view = .frame → l.dominantBits = 0) ∧ l.slot.length ≤ 3 ∧ l.clock < bitsPerMs

theorem State.lineOk_iff (s : State) : s.lineOk ↔ s.line.agrees s.mem.rate.bitsPerMs := Iff.rfl

theorem Rate.bitsPerMs_pos (r : Rate) : 0 < r.bitsPerMs := by cases r <;> decide

theorem LineIf.initial_agrees (r : Rate) : LineIf.initial.agrees r.bitsPerMs := by
  have pos := r.bitsPerMs_pos
  simp [LineIf.agrees, LineIf.initial, LineIf.attempt, Config.idleGap, pos]

section Agreement

variable {l : LineIf} {n : Nat} (h : l.agrees n)
include h

/-- Outside FRAME nothing is received, awaited, sent or faulted. -/
theorem LineIf.agrees.outside_frame (view : l.view ≠ .frame) :
    l.rx = none ∧ l.awaiting = .nothing ∧ l.faulted = none ∧ l.tx = .idle := by
  obtain ⟨frame, -, faulted, attempt, -⟩ := h
  have ⟨rx, awaiting⟩ : l.rx = none ∧ l.awaiting = .nothing := by
    have := mt frame.2 view
    simpa using this
  refine ⟨rx, awaiting, by_contra fun f => view (faulted f).1, ?_⟩
  cases htx : l.tx with
  | idle => rfl
  | offering a =>
    obtain ⟨read, hread, -⟩ := attempt a (by simp [LineIf.attempt, htx])
    simp [rx] at hread
  | sending a =>
    obtain ⟨read, hread, -⟩ := attempt a (by simp [LineIf.attempt, htx])
    simp [rx] at hread

/-- R58: the slot of a frame has been read, or an attempt has been completed: QUIET again. -/
theorem LineIf.agrees.toQuiet (view : l.view = .frame) : l.toQuiet.agrees n := by
  obtain ⟨-, -, -, -, stuck, -, dominant, -, rest⟩ := h
  have zero : l.dominantBits = 0 := rest.1 (.inr view)
  have unstuck : l.stuck = false := by simpa [view] using stuck
  simp only [LineIf.agrees, LineIf.toQuiet, LineIf.attempt]
  simp [unstuck, zero, rest.2.2]

/-- An attempt in flight is part of a frame. -/
theorem LineIf.agrees.view_of_attempt {a : Attempt} (attempt : l.attempt = some a) : l.view = .frame := by
  by_contra out
  have idle := (h.outside_frame out).2.2.2
  simp [LineIf.attempt, idle] at attempt

/-- R52, R69, R70: levels read outside a frame are counted. -/
theorem LineIf.agrees.hearsAll {levels : List Bool} {l' : LineIf} (view : l.view = .settling ∨ l.view = .stuck)
    (read : l.hearsAll levels = some l') : l'.agrees n ∧ l'.view = l.view := by
  have ⟨_, _, _, _, _, quiet, dominant, one, _⟩ := h
  obtain ⟨same, quiet', dominant', one'⟩ := LineIf.hearsAll_counts read quiet dominant one
  rw [same]
  obtain ⟨frame, awaiting, faulted, attempt, stuck, -, -, -, -, slot, clock⟩ := h
  refine ⟨⟨frame, awaiting, faulted, attempt, stuck, quiet', dominant', one', ?_, slot, clock⟩, rfl⟩
  dsimp only
  rintro (v | v) <;> simp [v] at view

/-- R52, R60: one recessive level more outside a frame. -/
theorem LineIf.agrees.hears_true (view : l.view ≠ .frame) : (l.hears true).agrees n := by
  obtain ⟨rx, waits, unfaulted, idle⟩ := h.outside_frame view
  obtain ⟨-, -, -, -, stuck, -, -, -, -, slot, clock⟩ := h
  simp only [LineIf.agrees, LineIf.hears, LineIf.attempt]
  simp [rx, waits, unfaulted, idle, stuck, view, slot, clock, LineIf.counted]

/-- R52, R60: the line turns dominant while QUIET. -/
theorem LineIf.agrees.frameStarts (view : l.view = .quiet) (levels : List Bool) :
    LineIf.agrees { l with view := .frame, quietBits := 0, rx := some (false :: levels) } n := by
  obtain ⟨-, waits, unfaulted, idle⟩ := h.outside_frame (by simp [view])
  obtain ⟨-, -, -, -, stuck, -, dominant, -, zero, slot, clock⟩ := h
  have unstuck : l.stuck = false := by simpa [view] using stuck
  simp only [LineIf.agrees, LineIf.attempt]
  simp [waits, unfaulted, idle, unstuck, zero (.inl view), slot, clock]

/-- R62: the start bit of an attempt goes on the line. -/
theorem LineIf.agrees.attemptStarts (view : l.view = .quiet) (a : Attempt) :
    LineIf.agrees { l with view := .frame, quietBits := 0, tx := .offering a, rx := some [] } n := by
  obtain ⟨-, waits, unfaulted, -⟩ := h.outside_frame (by simp [view])
  obtain ⟨-, -, -, -, stuck, -, dominant, -, zero, slot, clock⟩ := h
  have unstuck : l.stuck = false := by simpa [view] using stuck
  simp only [LineIf.agrees, LineIf.attempt]
  simp [waits, unfaulted, unstuck, zero (.inl view), slot, clock, Frame.arbitration]

/-- R52: recessive bit times counted in QUIET. -/
theorem LineIf.agrees.quietCounts (view : l.view = .quiet) (bits : Nat) :
    LineIf.agrees { l with quietBits := l.counted bits } n := by
  obtain ⟨frame, awaiting, faulted, attempt, stuck, -, dominant, -, zero, rest⟩ := h
  exact ⟨frame, awaiting, faulted, attempt, stuck, Nat.min_le_right _ _, dominant, .inr (zero (.inl view)), zero, rest⟩

/-- R63, R64: the transmitter stops within a frame, and the levels read stay. -/
theorem LineIf.agrees.stops {a : Attempt} (attempt : l.attempt = some a) (read : List Bool) (x : Option Faulted) :
    LineIf.agrees { l with tx := .idle, rx := some read, faulted := x } n := by
  have view := h.view_of_attempt attempt
  obtain ⟨frame, awaiting, -, inFlight, rest⟩ := h
  obtain ⟨before, hrx, -⟩ := inFlight a attempt
  have waits : l.awaiting = .nothing := by
    by_contra w
    simp [awaiting w] at hrx
  exact ⟨by simp [view], fun w => absurd waits w, fun _ => ⟨view, rfl⟩, nofun, rest⟩

/-- R64: an attempt that ends FAULT, in the last bit of its delimiter too. -/
theorem LineIf.agrees.stopFaulted {a : Attempt} (attempt : l.attempt = some a) (read : List Bool) :
    (l.stopFaulted a read).agrees n := by
  unfold LineIf.stopFaulted
  dsimp only
  split
  · have view := h.view_of_attempt attempt
    obtain ⟨-, -, -, -, stuck, quiet, dominant, one, zero, -, clock⟩ := h
    exact ⟨by simp [view], fun _ => rfl, fun _ => ⟨view, rfl⟩, nofun, stuck, quiet, dominant, one, zero,
      Nat.le_of_ble_eq_true rfl, clock⟩
  · exact h.stops attempt read _

/-- R58: the frame that another station sends ends, and its slot is read next. -/
theorem LineIf.agrees.ends (view : l.view = .frame) (idle : l.tx = .idle) {w : Awaiting} (waits : w ≠ .nothing) :
    LineIf.agrees { l with rx := none, awaiting := w, slot := [] } n := by
  obtain ⟨-, -, -, -, stuck, quiet, dominant, one, zero, -, clock⟩ := h
  exact ⟨by simp [view, waits], fun _ => rfl, fun _ => ⟨view, idle⟩, by simp [LineIf.attempt, idle], stuck, quiet,
    dominant, one, zero, Nat.zero_le _, clock⟩

/-- R59: the frame that another station sends is broken. -/
theorem LineIf.agrees.breaks (view : l.view = .frame) (idle : l.tx = .idle) (waits : l.awaiting = .nothing) :
    LineIf.agrees { l with view := .settling, quietBits := 0, dominantBits := 1, rx := none, faulted := none } n := by
  obtain ⟨-, -, -, -, stuck, -, -, -, -, slot, clock⟩ := h
  have unstuck : l.stuck = false := by simpa [view] using stuck
  simp only [LineIf.agrees, LineIf.attempt]
  simp [idle, waits, unstuck, slot, clock]

/-- R52, R69, R70: with these counts the line becomes QUIET or STUCK. -/
theorem LineIf.agrees.moves (out : l.view ≠ .frame) {v : LineView} {quiet : Nat} {stuck : Bool}
    (becomes : v = .quiet ∧ stuck = false ∨ v = .stuck ∧ stuck = true) (gap : quiet ≤ Config.idleGap) :
    LineIf.agrees { l with view := v, quietBits := quiet, dominantBits := 0, stuck := stuck } n := by
  obtain ⟨rx, waits, unfaulted, idle⟩ := h.outside_frame out
  obtain ⟨-, -, -, -, -, -, -, -, -, slot, clock⟩ := h
  obtain ⟨rfl, rfl⟩ | ⟨rfl, rfl⟩ := becomes <;>
    simp [LineIf.agrees, LineIf.attempt, rx, waits, unfaulted, idle, slot, clock, gap]

/-- R51, R52: the level that the station itself drives is read back in FRAME. -/
theorem LineIf.agrees.readsOwn (waits : l.awaiting = .nothing) (due : l.dueNow = []) (view : l.view = .frame) :
    (l.reads [l.drive]).agrees n := by
  have ⟨frame, awaiting, faulted, attempt, rest⟩ := h
  obtain ⟨read, hrx⟩ : ∃ read, l.rx = some read := by
    have := frame.1 view
    simpa [waits, Option.ne_none_iff_exists'] using this
  have after : l.frameAfter [l.drive] = some (read ++ [l.drive]) := LineIf.frameAfter_of_rx _ hrx
  simp only [LineIf.reads, after]
  refine ⟨by simp [view], fun w => absurd waits w, fun f => ⟨view, ?_⟩, ?_, rest⟩
  · rw [(faulted f).2]
    rfl
  · have running (a : Attempt) (flies : l.attempt = some a) :
        read ++ [l.drive] <+: a.frame.sent ∧ (l.tx = .offering a ↔ read.length < a.frame.arbitration) := by
      obtain ⟨r, hr, sofar, offers⟩ := attempt a flies
      obtain rfl : r = read := by simpa [hrx] using hr.symm
      have sofar : r <+: a.frame.sent := List.isPrefixOf_iff_prefix.1 sofar
      have more : r.length < a.frame.sent.length := by
        by_contra all
        have whole : r = a.frame.sent := sofar.eq_of_length_le (by omega)
        obtain ⟨x, completes⟩ := LineIf.completes_of_read_sent flies (whole ▸ hrx)
        simp [LineIf.dueNow, view, waits, completes] at due
      refine ⟨?_, offers⟩
      have drives : l.drive = (a.frame.sent[r.length]?).getD true := by simp [LineIf.drive, flies, hrx]
      exact drives ▸ prefix_append_drive sofar more
    intro a flies
    rw [Option.mem_def] at flies
    refine ⟨read ++ [l.drive], rfl, ?_⟩
    rw [List.isPrefixOf_iff_prefix]
    obtain ⟨-, idle⟩ | ⟨b, before, sends⟩ | ⟨b, offers, early, stays⟩ := l.tx.past_cases (read ++ [l.drive]).length
    · simp only [LineIf.attempt, idle, reduceCtorEq] at flies
    · obtain rfl : b = a := by simpa only [LineIf.attempt, sends, Option.some.injEq] using flies
      obtain ⟨goesOn, iff_⟩ := running b (by rcases before with e | e <;> simp [LineIf.attempt, e])
      refine ⟨goesOn, ?_⟩
      dsimp only
      rw [sends]
      refine ⟨nofun, fun early => ?_⟩
      obtain offers | sending := before
      · simp only [offers, Transmitter.past] at sends
        split at sends
        · omega
        · cases sends
      · rw [List.length_append] at early
        have := iff_.2 (by omega)
        simp [sending] at this
    · obtain rfl : b = a := by simpa only [LineIf.attempt, stays, Option.some.injEq] using flies
      exact ⟨(running b (by simp [LineIf.attempt, offers])).1, by dsimp only; simp only [stays, early]⟩

/-- R197: one bit time more of the slot is read. -/
theorem LineIf.agrees.readsSlot (waits : l.awaiting ≠ .nothing) (due : l.dueNow = []) (view : l.view = .frame) :
    LineIf.agrees { l with slot := l.slotAfter [true] } n := by
  obtain ⟨frame, awaiting, faulted, attempt, stuck, quiet, dominant, one, zero, slot, clock⟩ := h
  have open_ : l.slot.length ≠ 3 := by simpa [LineIf.dueNow, view, waits, commandWhen] using due
  refine ⟨frame, awaiting, faulted, attempt, stuck, quiet, dominant, one, zero, ?_, clock⟩
  simp only [LineIf.slotAfter, List.length_append, Awaiting.slotLevels_length, List.length_singleton]
  omega

/-- R51, R52: a bit time with nothing due. -/
theorem LineIf.agrees.bitTime (due : l.dueNow = []) : l.bitTime.agrees n := by
  unfold LineIf.bitTime
  split
  · next view => exact h.hears_true (by simp [view])
  · next view => exact h.hears_true (by simp [view])
  · next view => exact h.hears_true (by simp [view])
  · next view =>
    split
    · next waits => exact h.readsOwn waits due view
    · next waits => exact h.readsSlot waits due view

end Agreement

/-! ### Every happening -/

/-- What follows the group leaves line interface and rate alone. -/
theorem lineOk_of_groupRest {s t : State} (same : t.groupRest = s.groupRest) (h : s.lineOk) : t.lineOk := by
  have line : t.line = s.line := congrArg GroupRest.line same
  have rate : t.mem.rate = s.mem.rate := congrArg GroupRest.rate same
  rw [State.lineOk_iff] at *
  rwa [line, rate]

theorem State.receiving_iff (s : State) :
    s.receiving = true ↔
      s.line.view = .frame ∧ s.line.tx = .idle ∧ s.line.awaiting = .nothing ∧ s.line.rx.isSome = true := by
  simp [State.receiving, and_assoc]

/-- The attempt that a level ends with FAULT is the one in flight. -/
theorem LineIf.attempt_of_faultsAt {l : LineIf} {read : List Bool} {a : Attempt} (h : l.tx.faultsAt read = some a) :
    l.attempt = some a := by
  unfold LineIf.attempt
  cases htx : l.tx with
  | idle => simp [Transmitter.faultsAt, htx] at h
  | offering b =>
    rw [htx, Transmitter.faultsAt] at h
    split at h
    · exact h
    · cases h
  | sending b =>
    rw [htx, Transmitter.faultsAt] at h
    split at h
    · exact h
    · cases h

/-- The transactions' and requests' side leaves line interface and rate alone, or resets the line interface. -/
theorem Processing.lineOk {s : State} {a : Answer} (h : s.lineOk) (answer : Processing s a) : a.state.lineOk := by
  cases answer with
  | denied k => exact h
  | configured b _ _ _ => exact h
  | started _ =>
    dsimp only [State.startHostCheck]
    split <;> exact h
  | restarted => exact LineIf.initial_agrees _
  | opened t zones units hold data => exact h
  | freed t => exact lineOk_of_groupRest (groupRest_of_slotRest (freeSlot_slotRest s t .host)) h
  | cancelled t => exact lineOk_of_groupRest (groupRest_of_slotRest (cancelSlot_slotRest s t)) h
  | surrendered =>
    dsimp only
    exact lineOk_of_groupRest (groupRest_of_slotRest (surrender_slotRest s)) h
  | departed _ => exact h
  | rejoined _ => exact h
  | shown data => exact h
  | pointed cursor data => exact h
  | took count data => exact h
  | tallied data => exact h

/-- Levels read outside a frame leave the line interface in agreement. -/
theorem State.lineOk.hearsAll {s : State} (h : s.lineOk) {levels : List Bool} {l : LineIf}
    (view : s.line.view = .settling ∨ s.line.view = .stuck) (read : s.line.hearsAll levels = some l) :
    l.agrees s.mem.rate.bitsPerMs ∧ l.view ≠ .frame := by
  obtain ⟨agrees, same⟩ := LineIf.agrees.hearsAll h view read
  refine ⟨agrees, ?_⟩
  rw [same]
  rcases view with v | v <;> simp [v]

/-- R52: every happening keeps the agreement of the line interface. -/
theorem Happens.lineOk {s t : State} (happens : Happens s t) (h : s.lineOk) : t.lineOk := by
  have agrees : s.line.agrees s.mem.rate.bitsPerMs := h
  cases happens with
  | hardReset x b => exact LineIf.initial_agrees _
  | cutOff p => exact LineIf.initial_agrees _
  | ssnFalls _ => exact h
  | ssnRises bytes cut =>
    unfold State.ssnRises
    split <;> exact h
  | processed touch code a answer =>
    have := answer.lineOk h
    cases touch <;> exact this
  | lineHears levels l view read => exact (h.hearsAll view read).1
  | lineSettles levels l view read =>
    obtain ⟨heard, out⟩ := h.hearsAll (.inl view) read
    have unstuck : l.stuck = false := by
      have same := (LineIf.agrees.hearsAll agrees (.inl view) read).2
      simpa [same, view] using heard.2.2.2.2.1
    have moved := LineIf.agrees.moves heard out (v := .quiet) (.inl ⟨rfl, rfl⟩) (Nat.le_refl Config.idleGap)
    rw [← unstuck] at moved
    exact moved
  | lineSticks levels l view read =>
    obtain ⟨heard, out⟩ := h.hearsAll (.inl view) read
    exact LineIf.agrees.moves heard out (.inr ⟨rfl, rfl⟩) (Nat.zero_le _)
  | lineClears levels l view read =>
    obtain ⟨heard, out⟩ := h.hearsAll (.inr view) read
    exact LineIf.agrees.moves heard out (.inl ⟨rfl, rfl⟩) (Nat.le_refl _)
  | frameStarts levels view _ => exact agrees.frameStarts view levels
  | attemptStarts a view => exact agrees.attemptStarts view a
  | quietCounts bits view => exact agrees.quietCounts view bits
  | attemptLost a levels read offering _ =>
    refine lineOk_of_groupRest (ownLost_groupRest _ a) ?_
    exact agrees.stops (a := a) (by simp [LineIf.attempt, offering]) read s.line.faulted
  | attemptFaults a levels read _ faults => exact agrees.stopFaulted (LineIf.attempt_of_faultsAt faults) read
  | frameBreaks receiving =>
    obtain ⟨view, idle, waits, -⟩ := s.receiving_iff.1 receiving
    refine lineOk_of_groupRest (deliverFault_groupRest _ _) (lineOk_of_groupRest (bump_groupRest _ _) ?_)
    exact agrees.breaks view idle waits
  | remainsEnd receiving =>
    obtain ⟨view, idle, -⟩ := s.receiving_iff.1 receiving
    exact agrees.ends view idle (by simp)
  | frameEnds r receiving =>
    obtain ⟨view, idle, -⟩ := s.receiving_iff.1 receiving
    have ends {w : Awaiting} (waits : w ≠ .nothing) := agrees.ends view idle waits
    cases r with
    | good f =>
      simp only [State.frameEnds]
      split
      · refine lineOk_of_groupRest ((heardFrom_groupRest _ _).trans
          ((restartListen_groupRest _).trans (hearSnap_groupRest _ f))) (ends (w := .snapPart) (by simp))
      · exact lineOk_of_groupRest (castVote_groupRest _ _) (ends (w := .heard _ _) (by simp))
    | failed => exact lineOk_of_groupRest (castVote_groupRest _ _) (ends (w := .heard _ _) (by simp))
    | malformed => exact lineOk_of_groupRest (castVote_groupRest _ _) (ends (w := .heard _ _) (by simp))
  | slotPasses waits =>
    exact lineOk_of_groupRest (deliverFault_groupRest _ _) (agrees.toQuiet (agrees.1.2 (.inr waits)))
  | outcome r v b waits =>
    refine lineOk_of_groupRest (deliverFault_groupRest _ _) ?_
    have same := outcomeHeard_groupRest { s with line := { s.line with awaiting := .nothing } } r v b
    have line := congrArg GroupRest.line same
    have rate := congrArg GroupRest.rate same
    rw [State.lineOk_iff]
    change (LineIf.toQuiet (State.line _)).agrees (Rate.bitsPerMs (Membership.rate (State.mem _)))
    dsimp only [State.groupRest] at line rate
    rw [line, rate]
    exact agrees.toQuiet (agrees.1.2 (.inr (by simp [waits])))
  | ownTaken a attempt =>
    exact lineOk_of_groupRest (ownTaken_groupRest _ a) (agrees.toQuiet (agrees.view_of_attempt attempt))
  | ownUnsent a attempt =>
    exact lineOk_of_groupRest (ownUnsent_groupRest _ a false) (agrees.toQuiet (agrees.view_of_attempt attempt))
  | partSent a attempt =>
    exact lineOk_of_groupRest (partSent_groupRest _) (agrees.toQuiet (agrees.view_of_attempt attempt))
  | listenExpires _ => exact h
  | beatExpires _ => exact h
  | evictFlagSets n _ _ => exact h
  | absenceRestarts n _ => exact h
  | catchupWaitExpires _ => exact lineOk_of_groupRest (failAttempt_groupRest s .timeout) h
  | holdExpires k =>
    exact lineOk_of_groupRest (groupRest_of_slotRest (giveUp_slotRest (s.emit _) k .hold)) h
  | hostCheckExpires =>
    have given := lineOk_of_groupRest (groupRest_of_slotRest (surrender_slotRest (s.emit { kind := .hostSilent }))) h
    dsimp only
    generalize (s.emit { kind := .hostSilent }).surrender = u at given ⊢
    exact given
  | idleTimerExpires _ => exact h
  | zoneLinesMove zl => exact h
  | edgeArrives zl z =>
    exact lineOk_of_groupRest (groupRest_of_slotRest (releaseZone_slotRest { s with zl := zl } z)) h

/-- R51, R52: a bit time that passes with nothing due. -/
theorem State.lineOk.bitTime {s : State} (h : s.lineOk) (due : s.dueNow = []) : s.bitTime.lineOk := by
  have nothing : s.line.dueNow = [] := by
    simp only [State.dueNow, List.append_eq_nil_iff] at due
    exact due.1.1.2
  have passes : s.line.bitTime.agrees s.mem.rate.bitsPerMs := LineIf.agrees.bitTime h nothing
  obtain ⟨frame, awaiting, faulted, attempt, stuck, quiet, dominant, one, zero, slot, -⟩ := passes
  unfold State.bitTime
  split
  · exact ⟨frame, awaiting, faulted, attempt, stuck, quiet, dominant, one, zero, slot, s.mem.rate.bitsPerMs_pos⟩
  · next early =>
    exact ⟨frame, awaiting, faulted, attempt, stuck, quiet, dominant, one, zero, slot, by dsimp only; omega⟩

/-! ### The bounds together -/

/-- Settles O54: each happening keeps each of the five, and so does a bit time with nothing due. -/
theorem everyStepKeepsTheBounds : Obligations.EveryStepKeepsTheBounds := by
  intro s t h
  have keeps {I : State → Prop} (of_keeps : ∀ u v : State, u.Keeps v → I u → I v) (holds : I s) : I t :=
    step_keeps h holds (fun q => of_keeps s _ ((State.Keeps.refl s).of_same rfl rfl (.refl _)))
      (fun u v hu happens => of_keeps u v (.of_happens happens) hu) (fun _ => of_keeps s _ (.bitTime s))
  refine ⟨keeps fun _ _ k => k.bounds, keeps fun _ _ k => k.serving, keeps fun _ _ k => k.queue.events,
    keeps fun _ _ k => k.queue.idle, fun line => ?_⟩
  exact step_keeps (I := fun u => u.lineOk) h line (fun _ hu => hu) (fun _ _ hu happens => happens.lineOk hu)
    fun due hs => hs.bitTime due

end Sys2Proof.Machine

/-! # The reservation table stays in order (R4 to R6, R15 to R25) -/

namespace Sys2Proof.Machine

/-! ### The limits, by owner and tag (R4) -/

/-- R4: no two records carry one owner and tag. -/
theorem distinctClaims_iff (rs : List Record) :
    distinctClaims rs = true ↔ (rs.map fun r => (r.owner, r.tag)).Nodup := by
  induction rs with
  | nil => simp [distinctClaims]
  | cons r rest ih =>
    rw [distinctClaims, Bool.and_eq_true, ih, List.map_cons, List.nodup_cons]
    simp [Record.isOf, Fin.ext_iff]

/-- R4: the records of one owner, counted. -/
theorem count_owner (rs : List Record) (o : StationNo) :
    (rs.map Record.owner).count o = (rs.filter fun r => r.owner = o).length := by
  rw [List.count, List.countP_map, List.countP_eq_length_filter]
  congr 1

theorem ownersWithinLimit_iff (rs : List Record) :
    ownersWithinLimit rs = true ↔ ∀ o : StationNo, (rs.map Record.owner).count o ≤ Config.maxPerOwner := by
  simp [ownersWithinLimit, count_owner]

/-! ### The zones and units that HELD records take (R5, R6) -/

/-- The record is HELD and covers the zone. -/
def Record.holds (z : Nat) (r : Record) : Bool := decide (r.state = .held) && r.covers z

theorem Record.holds_of_waiting {r : Record} (waiting : r.state = .waiting) (z : Nat) : r.holds z = false := by
  simp [Record.holds, waiting]

theorem heldDisjoint_iff (rs : List Record) :
    heldDisjoint rs = true ↔ ∀ z : Fin 32, (rs.filter (Record.holds z.val)).length ≤ 1 := by
  have same (z : Nat) : (fun r : Record => decide (r.state = .held) && r.covers z) = Record.holds z := rfl
  simp [heldDisjoint, same]

theorem holderOf_eq (rs : List Record) (z : Nat) :
    holderOf rs z = (rs.filter (Record.holds z)).head?.map fun r => (r.owner, r.tag) := by
  rw [List.head?_filter]
  rfl

theorem holderOf_eq_none_iff (rs : List Record) (z : Nat) : holderOf rs z = none ↔ rs.filter (Record.holds z) = [] := by
  simp [holderOf_eq]

theorem heldCovers_iff (rs : List Record) (z : Nat) : heldCovers rs z = true ↔ rs.filter (Record.holds z) ≠ [] := by
  simp [heldCovers, Record.holds]

/-- R6: the units of HELD records, one record at a time. -/
theorem heldUnits_cons (r : Record) (rs : List Record) :
    heldUnits (r :: rs) = (if r.state = .held then r.units else 0) + heldUnits rs := by
  unfold heldUnits
  by_cases held : r.state = .held <;> simp [held]

theorem heldUnits_append (front back : List Record) : heldUnits (front ++ back) = heldUnits front + heldUnits back := by
  simp [heldUnits]

theorem heldUnits_filter_add (rs : List Record) (p : Record → Bool) :
    heldUnits (rs.filter p) + heldUnits (rs.filter fun r => !p r) = heldUnits rs := by
  induction rs with
  | nil => rfl
  | cons r rest ih =>
    cases hp : p r <;> simp [hp, heldUnits_cons] <;> omega

/-! ### A walk (R16 to R18) -/

/-- R5, R6: the zone map and the pool in use are as the HELD records of a list give them, and within the capacity. -/
structure Accounts (cap : Nat) (rs : List Record) (zoneMap : Vector (Option (StationNo × Tag)) 32) (inUse : Nat) :
    Prop where
  disjoint : ∀ z : Fin 32, (rs.filter (Record.holds z.val)).length ≤ 1
  zones : ∀ z : Fin 32, zoneMap[z] = holderOf rs z.val
  units : inUse = heldUnits rs
  fits : inUse ≤ cap

/-- R18: the record once granted. -/
def Record.granted (r : Record) (seq : Seq) : Record := { r with state := .held, grantedAt := some seq }

theorem Record.granted_holds (r : Record) (seq : Seq) (z : Nat) : (r.granted seq).holds z = r.covers z := by
  simp [Record.granted, Record.holds, Record.covers]

/-- R18: a grant of a record whose zones are free and whose units fit keeps the accounts. -/
theorem Accounts.grant {cap : Nat} {before after : List Record} {r : Record} {zoneMap : Vector (Option (StationNo × Tag)) 32}
    {inUse : Nat} (acc : Accounts cap (before ++ r :: after) zoneMap inUse) (waiting : r.state = .waiting)
    (free : ∀ z : Fin 32, r.covers z.val = true → zoneMap[z] = none) (fits : inUse + r.units ≤ cap) (seq : Seq) :
    Accounts cap (before ++ r.granted seq :: after) (markZones zoneMap r.zones (r.owner, r.tag)) (inUse + r.units) := by
  have filters (z : Nat) : (before ++ r :: after).filter (Record.holds z) =
      before.filter (Record.holds z) ++ after.filter (Record.holds z) := by
    simp [Record.holds_of_waiting waiting]
  have alone (z : Fin 32) (covers : r.covers z.val = true) :
      before.filter (Record.holds z.val) = [] ∧ after.filter (Record.holds z.val) = [] := by
    have unheld := acc.zones z ▸ free z covers
    rwa [holderOf_eq_none_iff, filters, List.append_eq_nil_iff] at unheld
  have granted (z : Fin 32) : (before ++ r.granted seq :: after).filter (Record.holds z.val) =
      if r.covers z.val then [r.granted seq] else (before ++ r :: after).filter (Record.holds z.val) := by
    rw [List.filter_append, List.filter_cons, Record.granted_holds]
    split
    · next covers => simp [alone z covers]
    · rw [filters]
  have covers_iff (z : Nat) : (r.zones.any fun g => g.covers z) = r.covers z := by
    unfold Record.covers
    cases r.zones <;> rfl
  refine ⟨fun z => ?_, fun z => ?_, ?_, fits⟩
  · rw [granted]
    split
    · simp
    · exact acc.disjoint z
  · rw [markZones_get, covers_iff, holderOf_eq, granted]
    split
    · rfl
    · rw [acc.zones, holderOf_eq]
  · rw [acc.units]
    simp [heldUnits_append, heldUnits_cons, waiting, Record.granted]
    omega

/-- R17: a walk over the rest of the records keeps the accounts of the records visited and to be visited. -/
theorem walk_accounts (cap : Nat) (seq : Seq) (rest : List Record) (w : Walk)
    (acc : Accounts cap (w.done ++ rest) w.zoneMap w.inUse) :
    let w' := rest.foldl (Walk.visit cap seq) w
    Accounts cap w'.done w'.zoneMap w'.inUse := by
  induction rest generalizing w with
  | nil => simpa using acc
  | cons r rest ih =>
    refine ih _ ?_
    obtain ⟨_, visit⟩ | ⟨waiting, zones, units, visit⟩ | ⟨_, _, visit⟩ := w.visit_cases cap seq r <;> rw [visit]
    · simpa using acc
    · have free := (w.zonesFree_iff r).1 zones
      have fits : w.inUse + r.units ≤ cap := by
        obtain none_ | ⟨_, fits⟩ := (w.unitsFree_iff cap r).1 units
        · simpa [none_] using acc.fits
        · exact fits
      simpa [Walk.grant, Record.granted] using acc.grant waiting (fun z hz => (free z hz).1) fits seq
    · simpa [Walk.passOver] using acc

/-- R17: a walk changes state and granted-at alone: what a function reads besides them stays, record by record. -/
theorem walk_map {α : Type} (k : Record → α) (reads : ∀ (r : Record) (seq : Seq), k (r.granted seq) = k r) (cap : Nat)
    (seq : Seq) (rest : List Record) (w : Walk) :
    (rest.foldl (Walk.visit cap seq) w).done.map k = (w.done ++ rest).map k := by
  induction rest generalizing w with
  | nil => simp
  | cons r rest ih =>
    rw [List.foldl_cons, ih]
    obtain ⟨_, visit⟩ | ⟨_, _, _, visit⟩ | ⟨_, _, visit⟩ := w.visit_cases cap seq r <;> rw [visit]
    · simp
    · have same := reads r seq
      simp only [Record.granted] at same
      simp [Walk.grant, same]
    · simp [Walk.passOver]

/-- R17, R18: every record after a walk is one from before, as it was or granted. -/
theorem mem_walk (cap : Nat) (seq : Seq) (rest : List Record) (w : Walk) {r : Record}
    (h : r ∈ (rest.foldl (Walk.visit cap seq) w).done) :
    r ∈ w.done ∨ ∃ q ∈ rest, r = q ∨ q.state = .waiting ∧ r = q.granted seq := by
  induction rest generalizing w with
  | nil => exact .inl h
  | cons q rest ih =>
    obtain visited | ⟨x, hx, same⟩ := ih _ h
    · obtain ⟨_, visit⟩ | ⟨waiting, _, _, visit⟩ | ⟨_, _, visit⟩ := w.visit_cases cap seq q <;> rw [visit] at visited
      · obtain before | rfl := by simpa using visited
        · exact .inl before
        · exact .inr ⟨r, by simp, .inl rfl⟩
      · obtain before | rfl := by simpa [Walk.grant] using visited
        · exact .inl before
        · exact .inr ⟨q, by simp, .inr ⟨waiting, rfl⟩⟩
      · obtain before | rfl := by simpa [Walk.passOver] using visited
        · exact .inl before
        · exact .inr ⟨r, by simp, .inl rfl⟩
    · exact .inr ⟨x, List.mem_cons_of_mem _ hx, same⟩

/-! ### The table (R4 to R6) -/

/-- R4 to R6: what `Table.ok` says, in the terms of the lemmas above. -/
theorem Table.ok_iff (cfg : Cfg) (t : Table) :
    t.ok cfg ↔ t.records.length ≤ Config.maxRecords ∧ (t.records.map fun r => (r.owner, r.tag)).Nodup ∧
      (∀ o : StationNo, (t.records.map Record.owner).count o ≤ Config.maxPerOwner) ∧ (∀ r ∈ t.records, r.ok cfg) ∧
      Accounts cfg.poolCapacity t.records t.zoneMap t.inUse := by
  rw [Table.ok, distinctClaims_iff, ownersWithinLimit_iff, heldDisjoint_iff]
  constructor
  · rintro ⟨len, distinct, owners, records, disjoint, zones, units, fits⟩
    exact ⟨len, distinct, owners, records, disjoint, zones, units, fits⟩
  · rintro ⟨len, distinct, owners, records, disjoint, zones, units, fits⟩
    exact ⟨len, distinct, owners, records, disjoint, zones, units, fits⟩

theorem Table.empty_ok (cfg : Cfg) : Table.empty.ok cfg := by
  rw [Table.ok_iff]
  refine ⟨Nat.zero_le _, List.nodup_nil, fun o => Nat.zero_le _, nofun, fun z => Nat.zero_le _, fun z => ?_, rfl,
    Nat.zero_le _⟩
  simp [Table.empty, holderOf]

/-- A grant leaves a record within the configuration. -/
theorem Record.ok.granted {cfg : Cfg} {r : Record} (h : r.ok cfg) (seq : Seq) : (r.granted seq).ok cfg := by
  obtain ⟨zones, units, some_, _⟩ := h
  exact ⟨zones, units, some_, by simp [Record.granted]⟩

/-- R16: one grant evaluation keeps the table in order. -/
theorem Table.ok.evaluate {cfg : Cfg} {t : Table} (h : t.ok cfg) (seq : Seq) :
    (t.evaluate cfg.poolCapacity seq).1.ok cfg := by
  rw [Table.ok_iff] at *
  obtain ⟨len, distinct, owners, records, acc⟩ := h
  have walked {α : Type} (k : Record → α) (reads : ∀ (r : Record) (q : Seq), k (r.granted q) = k r) :
      (t.evaluate cfg.poolCapacity seq).1.records.map k = t.records.map k :=
    walk_map k reads cfg.poolCapacity seq t.records t.walkStart
  refine ⟨?_, ?_, fun o => ?_, fun r hr => ?_, ?_⟩
  · have := congrArg List.length (walked (fun _ => ()) fun _ _ => rfl)
    simp only [List.length_map] at this
    rwa [this]
  · rw [walked _ fun _ _ => rfl]
    exact distinct
  · rw [walked _ fun _ _ => rfl]
    exact owners o
  · obtain none_ | ⟨q, hq, rfl | ⟨_, rfl⟩⟩ := mem_walk cfg.poolCapacity seq t.records t.walkStart hr
    · exact absurd none_ List.not_mem_nil
    · exact records r hq
    · exact (records q hq).granted seq
  · exact walk_accounts cfg.poolCapacity seq t.records t.walkStart acc

/-- R3, R5, R6: a removal keeps the table in order. -/
theorem Table.ok.remove {cfg : Cfg} {t : Table} (h : t.ok cfg) (p : Record → Bool) : (t.remove p).1.ok cfg := by
  rw [Table.ok_iff] at *
  obtain ⟨len, distinct, owners, records, disjoint, zones, units, fits⟩ := h
  have stays : (t.remove p).1.records = t.records.filter fun r => !p r := rfl
  have sub : (t.remove p).1.records.Sublist t.records := List.filter_sublist
  have split_ := heldUnits_filter_add t.records p
  have inUse : (t.remove p).1.inUse = t.inUse - heldUnits (t.records.filter p) := rfl
  refine ⟨sub.length_le.trans len, distinct.sublist (sub.map _), fun o => ((sub.map _).count_le o).trans (owners o),
    fun r hr => records r (sub.subset hr), fun z => ?_, fun z => ?_, ?_, ?_⟩
  · exact (sub.filter _).length_le.trans (disjoint z)
  · rw [Table.remove_zone, stays]
    have parts := List.length_eq_length_filter_add (l := t.records.filter (Record.holds z.val)) p
    have comm (q : Record → Bool) : (t.records.filter q).filter (Record.holds z.val) =
        (t.records.filter (Record.holds z.val)).filter q := List.filter_comm _ _ _
    have one := disjoint z
    split
    · next freed =>
      have taken := List.length_pos_iff.2 ((heldCovers_iff _ _).1 freed)
      rw [comm] at taken
      symm
      rw [holderOf_eq_none_iff, comm, ← List.length_eq_zero_iff]
      omega
    · next kept =>
      have untaken : (t.records.filter (Record.holds z.val)).filter p = [] := by
        rw [← comm]
        simpa using mt (heldCovers_iff _ _).2 kept
      have all : (t.records.filter (Record.holds z.val)).filter (fun r => !p r) =
          t.records.filter (Record.holds z.val) := by
        refine List.filter_eq_self.2 fun r hr => ?_
        have := List.filter_eq_nil_iff.1 untaken r hr
        simpa using this
      rw [zones, holderOf_eq, holderOf_eq, comm, all]
  · rw [inUse, stays]
    omega
  · rw [inUse]
    omega

theorem Table.ok.removeAndEvaluate {cfg : Cfg} {t : Table} (h : t.ok cfg) (seq : Seq) (p : Record → Bool)
    (tag : Option TagOutcome) : (t.removeAndEvaluate cfg.poolCapacity seq p tag).1.ok cfg := by
  obtain ⟨_, same⟩ | ⟨_, removed⟩ := t.removeAndEvaluate_cases cfg.poolCapacity seq p tag
  · rwa [same]
  · rw [removed]
    exact (h.remove p).evaluate seq

/-- R15: the record of an admitted CLAIM keeps the table in order. -/
theorem Table.ok.admitted {cfg : Cfg} {t : Table} (h : t.ok cfg) {o : StationNo} {tag : Byte} {zp : Bool} {lo hi : Byte}
    {units : Half} (admitted : t.admission cfg true o tag zp lo hi units = .admitted) (seq : Seq) :
    Table.ok cfg { t with records := t.records ++ [newRecord o tag zp lo hi units seq] } := by
  rw [Table.ok_iff] at *
  obtain ⟨len, distinct, owners, records, disjoint, zones, inUse, fits⟩ := h
  by_cases named : (t.find o tag.toNat).isSome = true
  · rw [Table.admission_of_duplicate named] at admitted
    cases admitted
  by_cases out : claimOutOfRange cfg tag zp lo hi units = true
  · rw [Table.admission_of_outOfRange named out] at admitted
    cases admitted
  rw [Table.admission_of_inRange named out] at admitted
  split at admitted
  · cases admitted
  next room =>
  rw [not_or, not_le, not_le] at room
  have waiting (z : Nat) : (newRecord o tag zp lo hi units seq).holds z = false := Record.holds_of_waiting rfl z
  rw [claimOutOfRange_iff] at out
  simp only [not_or, not_lt, not_and] at out
  obtain ⟨tagOk, loHi, hiOk, unitsOk, some_⟩ := out
  have tagVal : (newRecord o tag zp lo hi units seq).tag.val = tag.toNat := Nat.mod_eq_of_lt (by omega)
  refine ⟨by simp; omega, ?_, fun x => ?_, fun r hr => ?_, fun z => ?_, fun z => ?_, ?_, fits⟩
  · rw [List.map_append, List.nodup_append]
    refine ⟨distinct, by simp, fun a ha b hb => ?_⟩
    obtain ⟨r, hr, rfl⟩ := List.mem_map.1 ha
    obtain rfl := by simpa using hb
    intro same
    obtain ⟨owner, tagSame⟩ := Prod.mk.inj same
    refine named ((t.find_isSome_iff o tag.toNat).2 ⟨r, hr, owner, ?_⟩)
    rw [tagSame, tagVal]
  · rw [List.map_append, List.count_append]
    by_cases hx : o = x
    · subst hx
      rw [count_owner]
      simp [newRecord]
      omega
    · have := owners x
      simp [newRecord, hx]
      exact this
  · obtain old | rfl := by simpa using hr
    · exact records r old
    · refine ⟨?_, unitsOk, ?_, by simp [newRecord]⟩
      · cases zp
        · rfl
        · simp [newRecord, loHi rfl]
          have := hiOk rfl
          omega
      · cases zp
        · right
          have := some_ rfl
          simp only [newRecord]
          exact Nat.pos_of_ne_zero fun zero => this (BitVec.eq_of_toNat_eq zero)
        · left
          rfl
  · simpa [waiting] using disjoint z
  · rw [zones, holderOf_eq, holderOf_eq]
    simp [waiting]
  · rw [inUse]
    simp [heldUnits, newRecord]

/-- R8: the application of a frame keeps the table in order. -/
theorem Table.ok.apply {cfg : Cfg} {t : Table} (h : t.ok cfg) (isMember : StationNo → Bool) (f : Frame) :
    (t.apply cfg isMember f).1.ok cfg := by
  simp only [Table.apply]
  split
  · next tag zp lo hi units _ =>
    by_cases out : t.admission cfg (isMember f.sender) f.sender tag zp lo hi units = .admitted
    · rw [Table.applyClaim_of_admitted out]
      cases member : isMember f.sender
      · rw [member, Table.admission_of_nonmember] at out
        cases out
      · rw [member] at out
        exact (h.admitted out f.seq).evaluate f.seq
    · rwa [Table.applyClaim_of_not_admitted out rfl]
  · exact h.removeAndEvaluate _ _ _
  · repeat' split
    all_goals first | exact h | exact h.removeAndEvaluate _ _ _
  · split
    · exact h.removeAndEvaluate _ _ _
    · exact h
  · split
    · exact h.removeAndEvaluate _ _ _
    · exact h
  · repeat' split
    all_goals first | exact h | exact h.removeAndEvaluate _ _ _
  all_goals exact h

/-! ### The owners of the records (R11, R21 to R23) -/

/-- R17: no walk brings in an owner. -/
theorem owner_of_mem_evaluate {t : Table} {cap : Nat} {seq : Seq} {r : Record} (h : r ∈ (t.evaluate cap seq).1.records) :
    ∃ q ∈ t.records, q.owner = r.owner := by
  obtain none_ | ⟨q, hq, rfl | ⟨_, rfl⟩⟩ := mem_walk cap seq t.records t.walkStart h
  · exact absurd none_ List.not_mem_nil
  · exact ⟨r, hq, rfl⟩
  · exact ⟨q, hq, rfl⟩

/-- R3: a record that stays after a removal is not of those named, and its owner had it before. -/
theorem owner_of_mem_removeAndEvaluate {t : Table} {cap : Nat} {seq : Seq} {p : Record → Bool}
    {tag : Option TagOutcome} {r : Record} (h : r ∈ (t.removeAndEvaluate cap seq p tag).1.records) :
    ∃ q ∈ t.records, p q = false ∧ q.owner = r.owner := by
  obtain ⟨none_, same⟩ | ⟨_, removed⟩ := t.removeAndEvaluate_cases cap seq p tag
  · rw [same] at h
    exact ⟨r, h, by simpa using List.filter_eq_nil_iff.1 none_ r h, rfl⟩
  · rw [removed] at h
    obtain ⟨q, hq, owner⟩ := owner_of_mem_evaluate h
    obtain ⟨mem, stays⟩ := List.mem_filter.1 hq
    exact ⟨q, mem, by simpa using stays, owner⟩

/-- The frame takes this station out of the group, or its records out of the table: its own LEAVE or JOIN, or an EVICT of
it by another. -/
def Frame.removes (f : Frame) (n : StationNo) : Prop :=
  (f.body = .leave ∨ ∃ d, f.body = .join d) ∧ n = f.sender ∨ ∃ x, f.body = .evict x ∧ n.val = x.toNat ∧ n ≠ f.sender

/-- R11, R21 to R23: after an application every owner is a member that the frame does not remove. -/
theorem owner_of_mem_apply {t : Table} {cfg : Cfg} {isMember : StationNo → Bool} {f : Frame}
    (owners : ∀ r ∈ t.records, isMember r.owner = true) {r : Record} (h : r ∈ (t.apply cfg isMember f).1.records) :
    isMember r.owner = true ∧ ¬ f.removes r.owner := by
  have removed (p : Record → Bool) (tag : Option TagOutcome)
      (hr : r ∈ (t.removeAndEvaluate cfg.poolCapacity f.seq p tag).1.records) :
      ∃ q ∈ t.records, p q = false ∧ q.owner = r.owner := owner_of_mem_removeAndEvaluate hr
  have stays (hr : r ∈ t.records) : isMember r.owner = true := owners r hr
  have member (p : Record → Bool) (tag : Option TagOutcome)
      (hr : r ∈ (t.removeAndEvaluate cfg.poolCapacity f.seq p tag).1.records) : isMember r.owner = true := by
    obtain ⟨q, hq, _, owner⟩ := removed p tag hr
    exact owner ▸ owners q hq
  have sendersGone (hr : r ∈ (if isMember f.sender then
      t.removeAndEvaluate cfg.poolCapacity f.seq (fun r => r.owner = f.sender) none else (t, {})).1.records) :
      isMember r.owner = true ∧ r.owner ≠ f.sender := by
    split at hr
    · obtain ⟨q, hq, other, owner⟩ := removed _ _ hr
      exact ⟨owner ▸ owners q hq, owner ▸ by simpa using other⟩
    · next out => exact ⟨owners r hr, fun same => out (same ▸ owners r hr)⟩
  simp only [Table.apply] at h
  cases hb : f.body with rw [hb] at h <;> dsimp only at h
  | claim tag zp lo hi units =>
    refine ⟨?_, by simp [Frame.removes, hb]⟩
    by_cases out : t.admission cfg (isMember f.sender) f.sender tag zp lo hi units = .admitted
    · rw [Table.applyClaim_of_admitted out] at h
      obtain ⟨q, hq, owner⟩ := owner_of_mem_evaluate h
      obtain old | rfl := by simpa using hq
      · exact owner ▸ owners q old
      · cases sender : isMember f.sender
        · rw [sender, Table.admission_of_nonmember] at out
          cases out
        · exact owner ▸ sender
    · rw [Table.applyClaim_of_not_admitted out rfl] at h
      exact stays h
  | release tag => exact ⟨member _ _ h, by simp [Frame.removes, hb]⟩
  | withdraw tag =>
    refine ⟨?_, by simp [Frame.removes, hb]⟩
    repeat' split at h
    all_goals first | exact stays h | exact member _ _ h
  | leave =>
    obtain ⟨isM, other⟩ := sendersGone h
    exact ⟨isM, by simpa [Frame.removes, hb] using other⟩
  | join d =>
    obtain ⟨isM, other⟩ := sendersGone h
    exact ⟨isM, by simpa [Frame.removes, hb] using other⟩
  | evict x =>
    split at h
    · split at h
      · obtain ⟨q, hq, other, owner⟩ := removed _ _ h
        have : r.owner.val ≠ x.toNat := fun same => by
          rw [owner] at other
          exact absurd (Fin.ext same) (by simpa using other)
        exact ⟨owner ▸ owners q hq, by simp [Frame.removes, hb, this]⟩
      · next kept =>
        refine ⟨stays h, ?_⟩
        simp only [Frame.removes, hb, reduceCtorEq, exists_false, or_self, false_and, Body.evict.injEq, false_or,
          not_exists]
        rintro _ ⟨rfl, same, other⟩
        have named : r.owner = ⟨x.toNat, by assumption⟩ := Fin.ext same
        exact kept (by simp [← named, stays h, other])
    · next far =>
      refine ⟨stays h, ?_⟩
      have : r.owner.val ≠ x.toNat := by omega
      simp [Frame.removes, hb, this]
  | beat fp => exact ⟨stays h, by simp [Frame.removes, hb]⟩
  | syncreq => exact ⟨stays h, by simp [Frame.removes, hb]⟩
  | found d => exact ⟨stays h, by simp [Frame.removes, hb]⟩
  | snapHeader => exact ⟨stays h, by simp [Frame.removes, hb]⟩
  | snapRecord => exact ⟨stays h, by simp [Frame.removes, hb]⟩

/-! ### The members (R79, R91, R95, R110) -/

section Members

@[simp] theorem Roster.isMember_add (r : Roster) (x n : StationNo) (q : Seq) :
    (r.add x q).isMember n = (decide (n = x) || r.isMember n) := by
  simp only [Roster.isMember, Roster.add, Fin.getElem_fin, Vector.getElem_set]
  by_cases h : x.val = n.val
  · simp [Fin.ext h]
  · simp [h, Fin.ext_iff, Ne.symm h]

@[simp] theorem Roster.isMember_removeMember (r : Roster) (x n : StationNo) :
    (r.removeMember x).isMember n = (decide (n ≠ x) && r.isMember n) := by
  simp only [Roster.isMember, Roster.removeMember, Fin.getElem_fin, Vector.getElem_set]
  by_cases h : x.val = n.val
  · simp [Fin.ext h]
  · simp [h, Fin.ext_iff, Ne.symm h]

/-- R79: what a frame records of its sender leaves the member set. -/
@[simp] theorem Roster.isMember_recordTaken (r : Roster) (x n : StationNo) (q : Seq) :
    (r.recordTaken x q).isMember n = r.isMember n := by
  unfold Roster.recordTaken
  split
  · next m hm =>
    simp only [Roster.isMember, Fin.getElem_fin, Vector.getElem_set] at hm ⊢
    split
    · next same => simp [← same, hm]
    · rfl
  · rfl

@[simp] theorem Roster.isMember_empty (n : StationNo) : Roster.empty.isMember n = false := by
  simp [Roster.isMember, Roster.empty]

end Members

/-- The events of a membership step are no part of the roster. -/
theorem membershipStep_roster (s : State) (f : Frame) (own : Bool) :
    (s.membershipStep f own).1.roster =
      (State.applyKind { s with roster := s.roster.recordTaken f.sender f.seq } f own).1.roster := by
  simp only [State.membershipStep]
  split <;> rfl

/-- R91, R95, R110: a member that the frame does not remove stays one. -/
theorem membershipStep_isMember {s : State} {f : Frame} {own : Bool} {n : StationNo} (member : s.roster.isMember n = true)
    (kept : ¬ f.removes n) : (s.membershipStep f own).1.roster.isMember n = true := by
  rw [membershipStep_roster]
  have recorded : (s.roster.recordTaken f.sender f.seq).isMember n = true := by simp [member]
  generalize hu : ({ s with roster := s.roster.recordTaken f.sender f.seq } : State) = u
  have there : u.roster.isMember n = true := hu ▸ recorded
  unfold State.applyKind
  split
  · next d hb =>
    have other : n ≠ f.sender := fun same => kept (.inl ⟨.inr ⟨d, hb⟩, same⟩)
    simp only [State.applyJoin]
    repeat' split
    all_goals simp [State.admitPeer, State.removePeer, there, other]
  · next hb =>
    have other : n ≠ f.sender := fun same => kept (.inl ⟨.inl hb, same⟩)
    simp only [State.applyLeave]
    repeat' split
    all_goals simp [State.removePeer, there, other]
  · next target hb =>
    simp only [State.applyEvict]
    split
    · next near =>
      split
      · next evicts =>
        simp only [Bool.and_eq_true, decide_eq_true_eq] at evicts
        have other : n ≠ ⟨target.toNat, near⟩ := by
          rintro rfl
          exact kept (.inr ⟨target, hb, rfl, evicts.2⟩)
        repeat' split
        all_goals simp [State.removePeer, there, other]
      · exact there
    · exact there
  all_goals exact there

/-! ### The candidate of an install (R25) -/

/-- R25, R199: a record part that passes is a record of this configuration with a listed owner. -/
theorem recordOfPart_ok {cfg : Cfg} {members : Half} {p : RecordPart} {r : Record}
    (h : recordOfPart cfg members p = some r) : r.ok cfg ∧ members.toNat.testBit r.owner.val = true := by
  unfold recordOfPart at h
  split at h
  · next passes =>
    obtain ⟨near, listed, _, range, units, some_, granted⟩ := passes
    cases h
    refine ⟨⟨?_, units, ?_, ?_⟩, ?_⟩
    · dsimp only
      split
      · next zp => simp [range zp]
      · rfl
    · dsimp only
      obtain zp | u := some_
      · exact .inl (by simp [zp])
      · exact .inr u
    · dsimp only
      rw [granted]
      cases p.held <;> simp
    · have : (Fin.ofNat 16 p.owner.toNat).val = p.owner.toNat := Nat.mod_eq_of_lt near
      rw [this]
      exact listed
  · cases h

theorem recordsOfParts_ok {cfg : Cfg} {members : Half} {parts : List RecordPart} {rs : List Record}
    (h : recordsOfParts cfg members parts = some rs) :
    ∀ r ∈ rs, r.ok cfg ∧ members.toNat.testBit r.owner.val = true := by
  induction parts generalizing rs with
  | nil =>
    cases h
    exact nofun
  | cons p rest ih =>
    unfold recordsOfParts at h
    split at h
    · next r rs' hr hrest =>
      cases h
      intro x hx
      obtain rfl | hx := List.mem_cons.1 hx
      · exact recordOfPart_ok hr
      · exact ih hrest x hx
    · cases h

/-- R25: the candidate table is in order, and its owners are listed. -/
theorem candidate_ok {cfg : Cfg} {sn : Snapshot} {t : Table} (h : candidate cfg sn = some t) :
    t.ok cfg ∧ ∀ r ∈ t.records, sn.members.toNat.testBit r.owner.val = true := by
  unfold candidate at h
  split at h
  · cases h
  · next rs hrs =>
    split at h
    · next checks =>
      obtain ⟨len, distinct, owners, disjoint, fits, _⟩ := checks
      cases h
      have parts := recordsOfParts_ok hrs
      refine ⟨⟨len, distinct, owners, fun r hr => (parts r hr).1, disjoint, fun z => ?_, rfl, fits⟩,
        fun r hr => (parts r hr).2⟩
      simp [Table.ofRecords]
    · cases h

/-- R131: the members of an installed roster are those that the header lists. -/
theorem isMember_membersOfHeader (members : Half) (lastTaken : List Seq) (digest : Option Half) (n : StationNo) :
    Roster.isMember { members := membersOfHeader members lastTaken, digest := digest } n = members.toNat.testBit n.val := by
  simp only [Roster.isMember, membersOfHeader, Fin.getElem_fin, Vector.getElem_ofFn]
  split
  · next listed => simp [listed]
  · next unlisted => simpa using unlisted

end Sys2Proof.Machine

/-! # Standing, table and presence timers through every step (R24, R31 to R38, R75 to R78, R83, R100 to R108) -/

namespace Sys2Proof.Machine

/-! ### The part of a state that they are about -/

/-- What standing, table and presence timers depend on. -/
structure GroupView where
  cfg           : Cfg
  number        : Option StationNo
  state         : StationState
  locked        : Bool
  listening     : Bool
  step          : StepState
  phase         : Phase
  waiting       : Bool
  table         : Table
  roster        : Roster
  pres          : Presence

/-- The part of a state that standing, table and presence timers are about. -/
def State.groupView (s : State) : GroupView where
  cfg := s.cfg
  number := s.mem.number
  state := s.mem.state
  locked := s.mem.locked
  listening := s.mem.listen.isRunning
  step := s.order.step
  phase := s.cu.phase
  waiting := s.cu.wait.isRunning
  table := s.table
  roster := s.roster
  pres := s.pres

/-- The slot unit leaves it alone. -/
theorem groupView_of_slotRest {s t : State} (same : t.slotRest = s.slotRest) : t.groupView = s.groupView := by
  simp only [State.slotRest, SlotRest.mk.injEq] at same
  simp only [State.groupView, same]

/-- R1 to R6, R11: the table is in order, and every owner a member. -/
def State.tableOk (s : State) : Prop := s.table.ok s.cfg ∧ s.ownersOk

/-- R24, R32, R35, R75, R78, R83: station state, step state, lock and listen timer agree. -/
def State.rankOk (s : State) : Prop :=
  (s.mem.state.follows = true ↔ s.order.step ≠ .off) ∧
  (s.order.step = .off → s.table = Table.empty ∧ s.roster = Roster.empty) ∧
  (s.mem.locked = true ↔ s.mem.state ≠ .idle) ∧
  (s.mem.listen.isRunning = true ↔ s.mem.state = .listening)

/-- R114, R115: the catch-up unit's requester is at work exactly while BEHIND. -/
def State.phaseOk (s : State) : Prop :=
  (s.order.step = .behind ↔ s.cu.phase ≠ .idle) ∧ (s.cu.wait.isRunning = true → s.cu.phase ≠ .idle)

/-- R100, R101, R106, R108: what `State.presenceOk` says, but that the beat timer of a MEMBER in step need not run yet. -/
def State.watchesOk (s : State) : Prop :=
  (s.pres.beat.isRunning = true → s.memberInStep = true) ∧
  (s.pres.beatPending = true → s.memberInStep = true) ∧
  (∀ n : StationNo, s.pres.evictFlag n = true → s.memberInStep = true) ∧
  (∀ n : StationNo, s.pres.absence[n] ≠ .stopped ↔ s.roster.isMember n = true ∧ s.mem.number ≠ some n)

/-- R101: the beat timer of a MEMBER in step runs. -/
def State.beatOk (s : State) : Prop := s.memberInStep = true → s.pres.beat.isRunning = true

section Parts

variable {s t : State}

theorem State.standingOk_iff : s.standingOk ↔ s.rankOk ∧ s.phaseOk := by
  unfold State.standingOk State.rankOk State.phaseOk
  tauto

theorem State.presenceOk_iff : s.presenceOk ↔ s.watchesOk ∧ s.beatOk := by
  unfold State.presenceOk State.watchesOk State.beatOk
  tauto

theorem State.memberInStep_of_groupView (same : t.groupView = s.groupView) : t.memberInStep = s.memberInStep := by
  simp only [State.groupView, GroupView.mk.injEq] at same
  simp only [State.memberInStep, same]

theorem State.rankOk.of_same (h : s.rankOk) (same : t.groupView = s.groupView) : t.rankOk := by
  simp only [State.groupView, GroupView.mk.injEq] at same
  simp only [State.rankOk, same]
  exact h

theorem State.phaseOk.of_same (h : s.phaseOk) (same : t.groupView = s.groupView) : t.phaseOk := by
  simp only [State.groupView, GroupView.mk.injEq] at same
  simp only [State.phaseOk, same]
  exact h

theorem State.tableOk.of_same (h : s.tableOk) (same : t.groupView = s.groupView) : t.tableOk := by
  simp only [State.groupView, GroupView.mk.injEq] at same
  simp only [State.tableOk, State.ownersOk, same]
  exact h

theorem State.watchesOk.of_same (h : s.watchesOk) (same : t.groupView = s.groupView) : t.watchesOk := by
  have member := State.memberInStep_of_groupView same
  simp only [State.groupView, GroupView.mk.injEq] at same
  simp only [State.watchesOk, member, same]
  exact h

theorem State.beatOk.of_same (h : s.beatOk) (same : t.groupView = s.groupView) : t.beatOk := by
  have member := State.memberInStep_of_groupView same
  simp only [State.groupView, GroupView.mk.injEq] at same
  simp only [State.beatOk, member, same]
  exact h

/-- A station that follows the group is neither IDLE nor LISTENING. -/
theorem State.rankOk.of_following (h : s.rankOk) (inGroup : s.order.step ≠ .off) :
    s.mem.state.follows = true ∧ s.mem.locked = true ∧ s.mem.listen.isRunning = false := by
  obtain ⟨follows, -, locked, listen⟩ := h
  have follows := follows.2 inGroup
  refine ⟨follows, locked.2 fun idle => ?_, Bool.eq_false_iff.2 fun running => ?_⟩
  · simp [idle, StationState.follows] at follows
  · simp [listen.1 running, StationState.follows] at follows

/-- A station in the group's order, with the configuration locked and no listen timer. -/
theorem State.rankOk_of (follows : s.mem.state.follows = true) (inGroup : s.order.step ≠ .off)
    (locked : s.mem.locked = true) (silent : s.mem.listen.isRunning = false) : s.rankOk := by
  refine ⟨by simp [follows, inGroup], fun off => absurd off inGroup, ?_, ?_⟩
  · simp only [locked, true_iff]
    intro idle
    simp [idle, StationState.follows] at follows
  · simp only [silent, Bool.false_eq_true, false_iff]
    intro listening
    simp [listening, StationState.follows] at follows

theorem State.memberInStep_of_step (out : s.order.step ≠ .inStep) : s.memberInStep = false := by
  simp [State.memberInStep, out]

theorem State.memberInStep_of_state (other : s.mem.state ≠ .member) : s.memberInStep = false := by
  simp [State.memberInStep, other]

theorem State.beatOk_of (out : s.memberInStep = false) : s.beatOk := fun member => absurd member (by simp [out])

end Parts

/-! ### Entry to JOINING and to BEHIND (R38, R77) -/

section Joining

variable (s : State) (join : Bool) (c : Cause) (q : Option Seq)

/-- R77: entry to JOINING is on membership, presence timers and events. -/
theorem enterJoining_eq :
    s.enterJoining join c q =
      { s with
        mem := { s.mem with
          state := .joining, listen := .stopped, pendingFound := false, pendingJoin := join, pendingLeave := false }
        pres := s.pres.quiesce s.cfg.absenceTime
        port := (s.enterJoining join c q).port } := by
  simp only [State.enterJoining]
  split <;> rfl

theorem enterJoining_groupView :
    (s.enterJoining join c q).groupView =
      { s.groupView with state := .joining, listening := false, pres := s.pres.quiesce s.cfg.absenceTime } := by
  rw [enterJoining_eq]
  rfl

theorem enterBehind_eq (other : s.order.step ≠ .behind) :
    s.enterBehind =
      { s with
        order := s.order.toBehind
        pres := s.pres.quiesce s.cfg.absenceTime
        cu := { CatchUp.idle with
          phase := .requesting
          syncreqPending := true
          wait := if s.order.lastHeard = none then .running s.cfg.absenceTime else .stopped } } := by
  simp [State.enterBehind, other]

end Joining

/-! ### Through an operation -/

/-- From `r` on, standing holds at `s`, the table stays in order, and so do the presence timers, but that the beat timer
need not run yet. -/
structure State.Tracks (r s : State) : Prop where
  standing : s.standingOk
  table : r.tableOk → s.tableOk
  watches : r.presenceOk → s.watchesOk

/-- From `r` on, standing holds at `s`, and table and presence timers stay in order. -/
structure State.Follows (r s : State) : Prop extends State.Tracks r s where
  beat : r.presenceOk → s.beatOk

theorem State.Follows.refl {s : State} (h : s.standingOk) : s.Follows s where
  standing := h
  table := id
  watches p := (State.presenceOk_iff.1 p).1
  beat p := (State.presenceOk_iff.1 p).2

/-- R24, R77: a station that follows no group keeps nothing of one. -/
structure State.Outside (t : State) : Prop where
  state : t.mem.state.follows = false
  off : t.order.step = .off
  table : t.table = Table.empty
  roster : t.roster = Roster.empty
  pres : t.pres = Presence.stopped
  phase : t.cu.phase = .idle
  silent : t.cu.wait.isRunning = false
  locked : t.mem.locked = true ↔ t.mem.state ≠ .idle
  listen : t.mem.listen.isRunning = true ↔ t.mem.state = .listening

namespace State.Outside

variable {r s t : State}

theorem of_slotRest (h : s.Outside) (same : t.slotRest = s.slotRest) : t.Outside := by
  simp only [State.slotRest, SlotRest.mk.injEq] at same
  constructor <;> simp only [same, h.state, h.off, h.table, h.roster, h.pres, h.phase, h.silent, h.locked, h.listen]

theorem clearSlots (h : s.Outside) (k : EventKind) (c : Cause) (q : Option Seq) : (s.clearSlots k c q).Outside :=
  h.of_slotRest (clearSlots_slotRest s k c q)

/-- R77: entry to LISTENING, with the configuration locked. -/
theorem enterListening (locked : s.mem.locked = true) (c : Cause) (q : Option Seq) : (s.enterListening c q).Outside where
  state := rfl
  off := rfl
  table := rfl
  roster := rfl
  pres := rfl
  phase := rfl
  silent := rfl
  locked := iff_of_true locked nofun
  listen := iff_of_true rfl rfl

/-- R77: entry to DETACHED, REFUSED or ISOLATED, with the configuration locked. -/
theorem enterOut (locked : s.mem.locked = true) {st : StationState} (out : st.isOut = true) (c : Cause) (q : Option Seq) :
    (s.enterOut st c q).Outside where
  state := by cases st <;> cases out <;> rfl
  off := rfl
  table := rfl
  roster := rfl
  pres := rfl
  phase := rfl
  silent := rfl
  locked := iff_of_true locked (by rintro rfl; cases out)
  listen := iff_of_false nofun (by rintro rfl; cases out)

theorem memberInStep (h : t.Outside) : t.memberInStep = false := State.memberInStep_of_step (by simp [h.off])

theorem rank (h : t.Outside) : t.rankOk :=
  ⟨by simp [h.state, h.off], fun _ => ⟨h.table, h.roster⟩, h.locked, h.listen⟩

theorem tableOk (h : t.Outside) : t.tableOk := by
  refine ⟨h.table ▸ Table.empty_ok t.cfg, ?_⟩
  rw [State.ownersOk, h.table]
  exact nofun

theorem watches (h : t.Outside) : t.watchesOk := by
  simp [State.watchesOk, h.pres, h.roster, Presence.stopped, Presence.evictFlag, Timer.isRunning]

theorem follows (h : t.Outside) : r.Follows t where
  standing := State.standingOk_iff.2 ⟨h.rank, by simp [State.phaseOk, h.off, h.phase, h.silent]⟩
  table _ := h.tableOk
  watches _ := h.watches
  beat _ := State.beatOk_of h.memberInStep

end State.Outside

/-! ### The presence timers through a change of standing -/

section Watches

variable {s t : State}

/-- R101, R108: a station that leaves MEMBER or IN_STEP keeps its watch on the members. -/
theorem State.watchesOk_of_quiesce {p : Presence} {full : Nat} (pres : t.pres = p.quiesce full)
    (watched : ∀ n : StationNo, p.absence[n] ≠ .stopped ↔ t.roster.isMember n = true ∧ t.mem.number ≠ some n) :
    t.watchesOk := by
  simp only [State.watchesOk, pres]
  refine ⟨nofun, nofun, fun n flag => absurd flag (by simp [Presence.quiesce_evictFlag]), fun n => ?_⟩
  rw [← watched n, Presence.quiesce_absence]
  cases p.absence[n] <;> simp [Watch.unexpire]

theorem State.watchesOk.quiesce (h : s.watchesOk) {full : Nat} (pres : t.pres = s.pres.quiesce full)
    (roster : t.roster = s.roster) (number : t.mem.number = s.mem.number) : t.watchesOk := by
  obtain ⟨_, _, _, absence⟩ := h
  exact State.watchesOk_of_quiesce pres fun n => by rw [roster, number]; exact absence n

theorem Presence.watchMembers_watches (p : Presence) (r : Roster) (me : Option StationNo) (full : Nat) (n : StationNo) :
    (p.watchMembers r me full).absence[n] ≠ .stopped ↔ r.isMember n = true ∧ me ≠ some n := by
  rw [Presence.watchMembers_absence]
  split <;> simp_all

/-- R92, R104: the watch on the members starts anew. -/
theorem State.watchesOk_of_watchMembers {p : Presence} {full : Nat}
    (absence : t.pres.absence = (p.watchMembers t.roster t.mem.number full).absence)
    (beat : t.pres.beat.isRunning = true → t.memberInStep = true)
    (pending : t.pres.beatPending = true → t.memberInStep = true) : t.watchesOk := by
  have same (n : StationNo) : t.pres.absence[n] = (p.watchMembers t.roster t.mem.number full).absence[n] := by
    rw [absence]
  refine ⟨beat, pending, fun n flag => ?_, fun n => ?_⟩
  · simp only [Presence.evictFlag, same, Presence.watchMembers_absence, decide_eq_true_eq] at flag
    split at flag <;> cases flag
  · rw [same]
    exact Presence.watchMembers_watches _ _ _ _ n

/-- R104, R105: the absence timer of one station is set; whatever clears an evict flag leaves the others. -/
theorem State.watchesOk.setAbsence (h : s.watchesOk) {x : StationNo} {w : Watch}
    (pres : t.pres = { s.pres with absence := s.pres.absence.set x w }) (calm : w ≠ .expired)
    (inStep : t.memberInStep = s.memberInStep) (number : t.mem.number = s.mem.number)
    (here : w ≠ .stopped ↔ t.roster.isMember x = true ∧ t.mem.number ≠ some x)
    (others : ∀ n, n ≠ x → t.roster.isMember n = s.roster.isMember n) : t.watchesOk := by
  obtain ⟨beat, pending, evict, absence⟩ := h
  have at_ (n : StationNo) : t.pres.absence[n] = if x = n then w else s.pres.absence[n] := by
    simp [pres, Vector.getElem_set, Fin.ext_iff]
  simp only [State.watchesOk, inStep]
  refine ⟨by simpa [pres] using beat, by simpa [pres] using pending, fun n flag => evict n ?_, fun n => ?_⟩
  · simp only [Presence.evictFlag, at_, decide_eq_true_eq] at flag ⊢
    split at flag
    · exact absurd flag calm
    · exact flag
  · rw [at_]
    split
    · next same => exact same ▸ here
    · next other => rw [others n (Ne.symm other), number]; exact absence n

end Watches

/-! ### The group's operations -/

/-- R134: a failed attempt is counted, and told to the host. -/
def State.countFailure (s : State) (c : Cause) : State :=
  (s.emit { kind := .catchupFail, count := some (s.cu.attempts + 1), cause := some (.cause c) }).bump .attemptsFailed

/-- R134, R135: the first two failed attempts lead to another one, and the third isolates the station. -/
theorem failAttempt_eq (s : State) (c : Cause) :
    s.failAttempt c =
      if s.cu.attempts + 1 < Config.maxAttempts then
        { s.countFailure c with cu :=
          { s.cu with
            attempts := s.cu.attempts + 1
            snapshot := none
            wait :=
              if s.cu.phase = .requesting ∧ s.order.lastHeard = none then .running s.cfg.absenceTime else .stopped
            vetoRun := 0
            syncreqPending := true
            phase := .requesting } }
      else ((s.countFailure c).enterOut .isolated .catchup s.order.lastHeard).clearSlots .lost .catchup none := rfl

namespace State.Tracks

variable {r s t : State}

theorem of_same (h : r.Tracks s) (same : t.groupView = s.groupView) : r.Tracks t where
  standing := State.standingOk_iff.2
    ⟨(State.standingOk_iff.1 h.standing).1.of_same same, (State.standingOk_iff.1 h.standing).2.of_same same⟩
  table ok := (h.table ok).of_same same
  watches ok := (h.watches ok).of_same same

theorem rank (h : r.Tracks s) : s.rankOk := (State.standingOk_iff.1 h.standing).1

theorem phase (h : r.Tracks s) : s.phaseOk := (State.standingOk_iff.1 h.standing).2

/-- R77: entry to JOINING of a station in the group's order. -/
theorem enterJoining (h : r.Tracks s) (inGroup : s.order.step ≠ .off) (join : Bool) (c : Cause) (q : Option Seq) :
    r.Follows (s.enterJoining join c q) := by
  have ⟨_, locked, _⟩ := h.rank.of_following inGroup
  rw [enterJoining_eq]
  exact
    { standing := State.standingOk_iff.2 ⟨State.rankOk_of rfl inGroup locked rfl, h.phase⟩
      table := h.table
      watches := fun ok => (h.watches ok).quiesce rfl rfl rfl
      beat := fun _ => State.beatOk_of (State.memberInStep_of_state nofun) }

/-- The beat timer of a station that is no MEMBER in step need not run. -/
theorem follows (h : r.Tracks s) (out : s.memberInStep = false) : r.Follows s := ⟨h, fun _ => State.beatOk_of out⟩

end State.Tracks

namespace State.Follows

variable {r s t : State}

theorem of_same (h : r.Follows s) (same : t.groupView = s.groupView) : r.Follows t :=
  ⟨h.toTracks.of_same same, fun ok => (h.beat ok).of_same same⟩

theorem of_slotRest (h : r.Follows s) (same : t.slotRest = s.slotRest) : r.Follows t :=
  h.of_same (groupView_of_slotRest same)

theorem emit (h : r.Follows s) (e : Event) : r.Follows (s.emit e) := h.of_same rfl

theorem bump (h : r.Follows s) (c : Counter) : r.Follows (s.bump c) := h.of_same rfl

theorem line (h : r.Follows s) (l : LineIf) : r.Follows { s with line := l } := h.of_same rfl

theorem clearSlots (h : r.Follows s) (k : EventKind) (c : Cause) (q : Option Seq) : r.Follows (s.clearSlots k c q) :=
  h.of_slotRest (clearSlots_slotRest s k c q)

/-- A station BEHIND or in step has its configuration locked. -/
theorem locked (h : r.Follows s) (inGroup : s.order.step ≠ .off) : s.mem.locked = true :=
  (h.rank.of_following inGroup).2.1

/-- R38, R116: entry to BEHIND of a station in the group's order. -/
theorem enterBehind (h : r.Follows s) (inGroup : s.order.step ≠ .off) : r.Follows s.enterBehind := by
  have ⟨follows, locked, silent⟩ := h.rank.of_following inGroup
  by_cases behind : s.order.step = .behind
  · simpa [State.enterBehind, behind] using h
  · rw [enterBehind_eq s behind]
    exact
      { standing := State.standingOk_iff.2
          ⟨State.rankOk_of follows nofun locked silent, iff_of_true rfl nofun, fun _ => nofun⟩
        table := h.table
        watches := fun ok => (h.watches ok).quiesce rfl rfl rfl
        beat := fun _ => State.beatOk_of (State.memberInStep_of_step nofun) }

/-- R84, R85: a station outside the group, with the configuration locked, goes JOINING and BEHIND. -/
theorem joinBehind (h : r.Follows s) (off : s.order.step = .off) (locked : s.mem.locked = true) (c : Cause) (q : Option Seq) :
    r.Follows (s.enterJoining false c q).enterBehind := by
  have other : (s.enterJoining false c q).order.step ≠ .behind := by
    rw [enterJoining_eq]
    simp [off]
  rw [enterBehind_eq _ other, enterJoining_eq]
  exact
    { standing := State.standingOk_iff.2
        ⟨State.rankOk_of rfl nofun locked rfl, iff_of_true rfl nofun, fun _ => nofun⟩
      table := h.table
      watches := fun ok => by
        have joined : State.watchesOk
            { s with mem := { s.mem with state := .joining }, pres := s.pres.quiesce s.cfg.absenceTime } :=
          (h.watches ok).quiesce rfl rfl rfl
        exact joined.quiesce rfl rfl rfl
      beat := fun _ => State.beatOk_of (State.memberInStep_of_step nofun) }

theorem record (h : r.Follows s) (q : Seq) : r.Follows (s.record q) := by
  unfold State.record
  split
  · exact h.of_same rfl
  · exact h

/-- A running absence timer that starts anew leaves the presence timers in order. -/
theorem startAbsence (h : r.Follows s) {n : StationNo} (runs : s.pres.absence[n] ≠ .stopped) (full : Nat) :
    r.Follows { s with pres := s.pres.startAbsence n full } where
  standing := h.standing
  table := h.table
  watches ok := (h.watches ok).setAbsence rfl nofun rfl rfl (iff_of_true nofun (((h.watches ok).2.2.2 n).1 runs))
    fun _ _ => rfl
  beat := h.beat

theorem heardFrom (h : r.Follows s) (n : StationNo) : r.Follows (s.heardFrom n) := by
  unfold State.heardFrom
  split
  · next hears =>
    simp only [Bool.and_eq_true, decide_eq_true_eq] at hears
    exact h.startAbsence hears.2 _
  · exact h

theorem restartListen (h : r.Follows s) : r.Follows s.restartListen := by
  unfold State.restartListen
  split
  · next running => exact h.of_same (by simp only [State.groupView, running]; rfl)
  · exact h

/-- The catch-up unit's requester goes on in another phase while BEHIND. -/
theorem phase_moves (h : r.Follows s) (behind : s.order.step = .behind) (cu : CatchUp) (phase : cu.phase ≠ .idle) :
    r.Follows { s with cu := cu } where
  standing := State.standingOk_iff.2 ⟨h.rank, iff_of_true behind phase, fun _ => phase⟩
  table := h.table
  watches := h.watches
  beat := h.beat

/-- R117, R128: a frame held back stops a wait timer at most. -/
theorem keepBack (h : r.Follows s) (own : Bool) (f : Frame) (first : Bool) : r.Follows (s.keepBack own f first) where
  standing := by
    refine State.standingOk_iff.2 ⟨h.rank, h.phase.1, fun running => ?_⟩
    simp only [State.keepBack, State.holdBack] at running
    split at running
    · cases running
    · exact h.phase.2 running
  table := h.table
  watches := h.watches
  beat := h.beat

/-- R134, R135: a failed attempt of a station BEHIND. -/
theorem failAttempt (h : r.Follows s) (behind : s.order.step = .behind) (c : Cause) : r.Follows (s.failAttempt c) := by
  have counted : r.Follows (s.countFailure c) := (h.emit _).bump _
  have locked : (s.countFailure c).mem.locked = true := h.locked (by simp [behind])
  rw [failAttempt_eq]
  split
  · exact counted.phase_moves behind _ nofun
  · exact ((State.Outside.enterOut locked rfl _ _).clearSlots _ _ _).follows

/-! ### Serves (R120 to R125) -/

theorem startNextServe (h : r.Follows s) : r.Follows s.startNextServe := by
  unfold State.startNextServe
  split
  · exact h.of_same rfl
  · exact h

theorem designate (h : r.Follows s) (n : StationNo) : r.Follows (s.designate n) := by
  unfold State.designate State.serveRequest
  repeat' split
  · exact h.of_same rfl
  · exact h.startNextServe
  · exact (h.bump _).startNextServe
  · exact startNextServe (h.of_same rfl)
  · exact h
  · exact h

theorem partSent (h : r.Follows s) : r.Follows s.partSent := by
  have ended : r.Follows { s with cu := { s.cu with serve := none, buffer := none } } := h.of_same rfl
  unfold State.partSent
  split
  · exact h
  · split
    · exact h.of_same rfl
    · exact (ended.bump _).startNextServe

end State.Follows

/-! ### Application (R45) -/

section PresenceOfMembers

variable {s : State}

/-- R79: what a frame records of its sender leaves the presence timers in line with the roster. -/
theorem State.watchesOk.recordTaken (h : s.watchesOk) (x : StationNo) (q : Seq) :
    State.watchesOk { s with roster := s.roster.recordTaken x q } := by
  obtain ⟨beat, pending, evict, absence⟩ := h
  exact ⟨beat, pending, evict, fun n => by rw [Roster.isMember_recordTaken]; exact absence n⟩

/-- R106: a station leaves the member set, and its absence timer stops. -/
theorem State.watchesOk.removePeer (h : s.watchesOk) (x : StationNo) : (s.removePeer x).watchesOk :=
  h.setAbsence (x := x) rfl nofun rfl rfl (by simp [State.removePeer]) fun n other => by simp [State.removePeer, other]

/-- R104: a station joins the member set, and its absence timer starts unless it is this station. -/
theorem State.watchesOk.admitPeer (h : s.watchesOk) (x : StationNo) (q : Seq) : (s.admitPeer x q).watchesOk := by
  by_cases me : s.isMe x = true
  · obtain ⟨beat, pending, evict, absence⟩ := h
    have number : s.mem.number = some x := by simpa [State.isMe] using me
    have admitted : s.admitPeer x q = { s with roster := s.roster.add x q } := by simp [State.admitPeer, me]
    rw [admitted]
    refine ⟨beat, pending, evict, fun n => (absence n).trans ?_⟩
    by_cases same : n = x
    · simp [number, same]
    · simp [same]
  · have admitted : s.admitPeer x q =
        { s with roster := s.roster.add x q, pres := s.pres.startAbsence x s.cfg.absenceTime } := by
      simp [State.admitPeer, me]
    rw [admitted]
    refine h.setAbsence (x := x) rfl nofun rfl rfl (iff_of_true nofun ⟨by simp, ?_⟩) fun n other => by simp [other]
    simpa [State.isMe] using me

theorem State.watchesOk.emit (h : s.watchesOk) (e : Event) : (s.emit e).watchesOk := h

theorem State.watchesOk.bump (h : s.watchesOk) (c : Counter) : (s.bump c).watchesOk := h

/-- R91, R95, R110: the membership effect keeps the presence timers in line with the roster. -/
theorem State.watchesOk.applyKind (h : s.watchesOk) (f : Frame) (own : Bool) : (s.applyKind f own).1.watchesOk := by
  unfold State.applyKind
  split
  · simp only [State.applyJoin]
    repeat' split
    all_goals first | exact h | exact h.admitPeer _ _ | exact h.removePeer _
  · simp only [State.applyLeave]
    repeat' split
    all_goals first | exact h | exact h.removePeer _
  · simp only [State.applyEvict]
    repeat' split
    all_goals first | exact h | exact h.removePeer _
  all_goals exact h

theorem State.watchesOk.membershipStep (h : s.watchesOk) (f : Frame) (own : Bool) :
    (s.membershipStep f own).1.watchesOk := by
  have applied := (h.recordTaken f.sender f.seq).applyKind f own
  simp only [State.membershipStep]
  split
  · exact applied.emit _
  · exact applied

/-- The membership effect leaves the beat timer to the move. -/
theorem membershipStep_beat (s : State) (f : Frame) (own : Bool) : (s.membershipStep f own).1.pres.beat = s.pres.beat := by
  simp only [State.membershipStep, State.applyKind, State.applyJoin, State.applyLeave, State.applyEvict]
  repeat' split
  all_goals simp only [State.admitPeer, State.emit_pres]
  all_goals try split
  all_goals rfl

end PresenceOfMembers

/-! ### What an application asks of the station -/

section Leaving

/-- The group is left for DETACHED, REFUSED or ISOLATED only. -/
theorem isOut_of_ownLoss {st out : StationState} {c c' : Cause} (h : ownLoss st c = .leaveGroup out c') :
    out.isOut = true := by
  cases st <;> cases h
  rfl

theorem isOut_of_applyKind {s : State} {f : Frame} {own : Bool} {st : StationState} {c : Cause}
    (h : (s.applyKind f own).2 = .leaveGroup st c) : st.isOut = true := by
  unfold State.applyKind at h
  split at h
  · simp only [State.applyJoin] at h
    repeat' split at h
    all_goals first | cases h; rfl | cases h
  · simp only [State.applyLeave] at h
    repeat' split at h
    all_goals first | cases h; rfl | exact isOut_of_ownLoss h | cases h
  · simp only [State.applyEvict] at h
    repeat' split at h
    all_goals first | exact isOut_of_ownLoss h | cases h
  all_goals cases h

/-- R98: dissolution adds no way out of the group. -/
theorem Move.withDissolution_leaveGroup {m : Move} {dissolved : Bool} {st : StationState} {c : Cause}
    (h : m.withDissolution dissolved = .leaveGroup st c) : m = .leaveGroup st c := by
  cases m <;> cases dissolved <;> first | exact h | cases h

theorem isOut_of_membershipStep {s : State} {f : Frame} {own : Bool} {st : StationState} {c : Cause}
    (h : (s.membershipStep f own).2 = .leaveGroup st c) : st.isOut = true :=
  isOut_of_applyKind (Move.withDissolution_leaveGroup h)

end Leaving

/-- An application has gone from `s`, in step, to `t`: `t` is in step with the catch-up unit's phase as it was, or out of
the group with the catch-up unit idle; standing but for the phase, table and presence timers stay in order. -/
structure State.Applied (s t : State) : Prop where
  rank : t.rankOk
  notBehind : t.order.step ≠ .behind
  off : t.order.step = .off → t.cu.phase = .idle ∧ t.cu.wait.isRunning = false
  inStep : t.order.step = .inStep → t.cu.phase = s.cu.phase ∧ t.cu.wait.isRunning = s.cu.wait.isRunning
  table : s.tableOk → t.tableOk
  watches : s.watchesOk → t.watchesOk
  beat : s.watchesOk → s.beatOk → t.beatOk

namespace State.Applied

variable {r s t u : State}

theorem refl (rank : s.rankOk) (inStep : s.order.step = .inStep) : s.Applied s :=
  ⟨rank, by simp [inStep], fun off => absurd off (by simp [inStep]), fun _ => ⟨rfl, rfl⟩, id, id, fun _ => id⟩

theorem trans (first : s.Applied t) (second : t.Applied u) (between : t.order.step = .inStep) : s.Applied u where
  rank := second.rank
  notBehind := second.notBehind
  off := second.off
  inStep on := ⟨(second.inStep on).1.trans (first.inStep between).1, (second.inStep on).2.trans (first.inStep between).2⟩
  table := second.table ∘ first.table
  watches := second.watches ∘ first.watches
  beat ok beats := second.beat (first.watches ok) (first.beat ok beats)

theorem of_same (h : s.Applied t) (same : u.groupView = t.groupView) : s.Applied u := by
  have rank := h.rank.of_same same
  have table (ok : s.tableOk) := (h.table ok).of_same same
  have watches (ok : s.watchesOk) := (h.watches ok).of_same same
  have beat (ok : s.watchesOk) (beats : s.beatOk) := (h.beat ok beats).of_same same
  simp only [State.groupView, GroupView.mk.injEq] at same
  obtain ⟨-, -, -, -, -, step, phase, waiting, -⟩ := same
  exact ⟨rank, step ▸ h.notBehind, by rw [step, phase, waiting]; exact h.off,
    by rw [step, phase, waiting]; exact h.inStep, table, watches, beat⟩

theorem of_slotRest (h : s.Applied t) (same : u.slotRest = t.slotRest) : s.Applied u :=
  h.of_same (groupView_of_slotRest same)

/-- An application that takes the station out of the group. -/
theorem of_outside (h : t.Outside) : s.Applied t where
  rank := h.rank
  notBehind := by simp [h.off]
  off _ := ⟨h.phase, h.silent⟩
  inStep on := absurd on (by simp [h.off])
  table _ := h.tableOk
  watches _ := h.watches
  beat _ _ := State.beatOk_of h.memberInStep

/-- An application that ends in step, given what becomes of the parts. -/
theorem of_inStep (rank : t.rankOk) (on : t.order.step = .inStep) (phase : t.cu.phase = s.cu.phase)
    (wait : t.cu.wait.isRunning = s.cu.wait.isRunning) (table : s.tableOk → t.tableOk) (watches : s.watchesOk → t.watchesOk)
    (beat : s.watchesOk → s.beatOk → t.beatOk) : s.Applied t :=
  ⟨rank, by simp [on], fun off => absurd off (by simp [on]), fun _ => ⟨phase, wait⟩, table, watches, beat⟩

/-- R45 steps 1 to 4: the table keeps records of members only. -/
theorem afterMembership (rank : s.rankOk) (on : s.order.step = .inStep) (f : Frame) (own : Bool) :
    s.Applied (s.afterMembership f own).1 := by
  have same := membershipStep_sameButRoster (s.afterTable f) f own
  have ⟨follows, locked, silent⟩ := rank.of_following (by simp [on])
  have member : (s.afterMembership f own).1.memberInStep = s.memberInStep := by
    simp only [State.afterMembership, State.memberInStep, same.mem, same.order]
    rfl
  have step : (s.afterMembership f own).1.order.step = .inStep := by
    simp only [State.afterMembership, same.order]
    exact on
  refine of_inStep ?_ step ?_ ?_ (fun ok => ⟨?_, fun x hx => ?_⟩) (fun ok => ?_) fun ok beats => ?_
  · refine State.rankOk_of ?_ (by simp [step]) ?_ ?_ <;> simp only [State.afterMembership, same.mem]
    exacts [follows, locked, silent]
  · simp only [State.afterMembership, same.cu]
    rfl
  · simp only [State.afterMembership, same.cu]
    rfl
  · simp only [State.afterMembership, same.table, same.cfg]
    exact ok.1.apply _ f
  · simp only [State.afterMembership, same.table] at hx
    obtain ⟨isMember, kept⟩ := owner_of_mem_apply ok.2 hx
    exact membershipStep_isMember isMember kept
  · have tabled : (s.afterTable f).watchesOk := ok
    exact tabled.membershipStep f own
  · intro now
    rw [member] at now
    exact (congrArg Timer.isRunning (membershipStep_beat (s.afterTable f) f own)).trans (beats now)

/-- R92: the station becomes a MEMBER, and watches the others. -/
theorem becomeMember (h : s.Applied t) (on : t.order.step = .inStep) (c : Cause) (q : Option Seq) :
    s.Applied (State.enterMember
      { t with pres := t.pres.watchMembers t.roster t.mem.number t.cfg.absenceTime } c q) := by
  have ⟨_, locked, silent⟩ := h.rank.of_following (by simp [on])
  have member : (State.enterMember
      { t with pres := t.pres.watchMembers t.roster t.mem.number t.cfg.absenceTime } c q).memberInStep = true := by
    simp [State.memberInStep, State.enterMember, on]
  refine of_inStep (State.rankOk_of rfl (by simp [State.enterMember, on]) locked silent) on (h.inStep on).1
    (h.inStep on).2 h.table (fun _ => ?_) fun _ _ _ => ?_
  · exact State.watchesOk_of_watchMembers (p := t.pres) rfl (fun _ => member) fun _ => member
  · simp [State.enterMember, on, Timer.isRunning]

/-- R96, R112: a MEMBER that loses its place goes JOINING. -/
theorem enterJoining (h : s.Applied t) (on : t.order.step = .inStep) (join : Bool) (c : Cause) (q : Option Seq) :
    s.Applied (t.enterJoining join c q) := by
  have ⟨_, locked, _⟩ := h.rank.of_following (by simp [on])
  rw [enterJoining_eq]
  exact of_inStep (State.rankOk_of rfl (by simp [on]) locked rfl) on (h.inStep on).1 (h.inStep on).2 h.table
    (fun ok => (h.watches ok).quiesce rfl rfl rfl) fun _ _ => State.beatOk_of (State.memberInStep_of_state nofun)

theorem dropServes (h : s.Applied t) : s.Applied { t with cu := t.cu.dropServes } := h.of_same rfl

/-- R76, R77: the move of an application, from a state in step. -/
theorem makeMove (h : s.Applied t) (on : t.order.step = .inStep) (m : Move)
    (leaves : ∀ st c, m = .leaveGroup st c → st.isOut = true) (q : Seq) : s.Applied (t.makeMove m q) := by
  have locked := (h.rank.of_following (by simp [on])).2.1
  cases m with
  | stay => exact h
  | becomeMember => exact h.becomeMember on _ _
  | loseMembership c => exact h.dropServes.enterJoining on _ _ _
  | leaveGroup st c => exact of_outside (.enterOut locked (leaves st c rfl) _ _)
  | dissolve => exact of_outside (.enterListening locked _ _)

/-- R102: an own frame taken reloads a running beat timer and clears BEAT pending. -/
theorem reload (h : s.Applied t) (own : Bool) : s.Applied (t.reload own) := by
  unfold State.reload
  split
  · refine ⟨h.rank, h.notBehind, h.off, h.inStep, h.table, fun ok => ?_, fun ok beats member => ?_⟩
    · obtain ⟨beat, _, evict, absence⟩ := h.watches ok
      refine ⟨fun running => beat ?_, nofun, evict, absence⟩
      simp only [Presence.ownFrameTaken] at running
      split at running
      · next was => exact was
      · exact running
    · have runs := h.beat ok beats member
      simp only [Presence.ownFrameTaken, runs, if_true]
      rfl
  · exact h

theorem settleSlots (h : s.Applied t) (m : Move) (f : Frame) (own : Bool) (entry : Option Tag) (rep : Report) :
    s.Applied (t.settleSlots m f own entry rep) := by
  cases m with
  | stay => exact h.of_slotRest (settleReport_slotRest t f own entry rep)
  | becomeMember => exact h.of_slotRest (settleReport_slotRest t f own entry rep)
  | loseMembership c => exact h.of_slotRest (clearSlots_slotRest t _ _ _)
  | leaveGroup st c => exact h.of_slotRest (clearSlots_slotRest t _ _ _)
  | dissolve => exact h.of_slotRest (clearSlots_slotRest t _ _ _)

/-- R45 steps 1 to 6. -/
theorem afterSlots (rank : s.rankOk) (on : s.order.step = .inStep) (f : Frame) (own : Bool) (entry : Option Tag) :
    s.Applied (s.afterSlots f own entry) := by
  have member := afterMembership rank on f own
  have still : (s.afterMembership f own).1.order.step = .inStep := by
    simp only [State.afterMembership, (membershipStep_sameButRoster (s.afterTable f) f own).order]
    exact on
  have moved : s.Applied (s.afterMove f own) :=
    member.makeMove still _ (fun st c h => isOut_of_membershipStep (s := s.afterTable f) h) _
  exact (moved.reload own).settleSlots _ _ _ _ _

/-- R46: a frame held back is applied as long as the station stays in step. -/
theorem applyHeld (h : s.Applied t) (x : Held) : s.Applied (t.applyHeld x) := by
  unfold State.applyHeld
  split
  · next on =>
    rw [applyFrame_eq]
    exact h.trans (afterSlots h.rank on _ _ _) on
  · exact h

theorem heldFrames (h : s.Applied t) (held : List Held) : s.Applied (held.foldl State.applyHeld t) := by
  induction held generalizing t with
  | nil => exact h
  | cons x held ih => exact ih (h.applyHeld x)

end State.Applied

namespace State.Follows

variable {r s t : State}

/-- What an application leaves of a state in step. -/
theorem applied (h : r.Follows s) (on : s.order.step = .inStep) (a : s.Applied t) : r.Follows t where
  standing := by
    have calm : s.cu.phase = .idle := by
      by_contra busy
      exact absurd (h.phase.1.2 busy) (by simp [on])
    have silent : s.cu.wait.isRunning = false := Bool.eq_false_iff.2 fun running => h.phase.2 running calm
    have idle : t.cu.phase = .idle ∧ t.cu.wait.isRunning = false := by
      cases ht : t.order.step with
      | off => exact a.off ht
      | behind => exact absurd ht a.notBehind
      | inStep => exact ⟨(a.inStep ht).1.trans calm, (a.inStep ht).2.trans silent⟩
    exact State.standingOk_iff.2 ⟨a.rank, by simp [State.phaseOk, a.notBehind, idle]⟩
  table ok := a.table (h.table ok)
  watches ok := a.watches (h.watches ok)
  beat ok := a.beat (h.watches ok) (h.beat ok)

/-- R50: a mismatch with the reference station sends a station of the group BEHIND; outside it there is none. -/
theorem compareFingerprint (h : r.Follows s) (f : Frame) (own : Bool) (carried kept : Half) :
    r.Follows (s.compareFingerprint f own carried kept) := by
  have counted := (h.emit { kind := .mismatch, station := some f.sender, seq := some f.seq }).bump .mismatches
  unfold State.compareFingerprint
  split
  · exact h
  · dsimp only
    split
    · next reference =>
      refine counted.enterBehind fun off => ?_
      have empty : s.roster = Roster.empty := (h.rank.2.1 off).2
      have none_ : Roster.empty.reference = none := by decide
      have some_ : s.roster.reference = some f.sender := reference.1
      rw [empty, none_] at some_
      cases some_
    · exact counted

theorem lastStep (h : r.Follows s) (f : Frame) (own : Bool) (kept : Half) : r.Follows (s.lastStep f own kept) := by
  unfold State.lastStep
  split
  · exact h.designate _
  · exact h.compareFingerprint _ _ _ _
  all_goals exact h

theorem applyFrame (h : r.Follows s) (on : s.order.step = .inStep) (live own : Bool) (entry : Option Tag) (f : Frame) :
    r.Follows (s.applyFrame live own entry f) := by
  have settled := h.applied on (.afterSlots h.rank on f own entry)
  rw [applyFrame_eq]
  split
  · exact settled.lastStep _ _ _
  · exact settled

/-! ### Install (R126 to R132) -/

/-- R131, R132: what an install takes a station BEHIND through, before its standing is settled. -/
theorem closedCatchUp (h : r.Follows s) (behind : s.order.step = .behind) {sn : Snapshot} {t : Table}
    (accepted : candidate s.cfg sn = some t) (held : List Held) :
    r.Tracks (held.foldl State.applyHeld (s.replaceReplicated sn t)).closeCatchUp := by
  have ⟨follows, locked, silent⟩ := h.rank.of_following (by simp [behind])
  have ⟨tableOk, owners⟩ := candidate_ok accepted
  have rank : (s.replaceReplicated sn t).rankOk := State.rankOk_of follows nofun locked silent
  have a : (s.replaceReplicated sn t).Applied (held.foldl State.applyHeld (s.replaceReplicated sn t)) :=
    State.Applied.heldFrames (.refl rank rfl) held
  have table : (s.replaceReplicated sn t).tableOk :=
    ⟨tableOk, fun x hx => (isMember_membersOfHeader _ _ _ _).trans (owners x hx)⟩
  have watches (ok : r.presenceOk) : (s.replaceReplicated sn t).watchesOk := by
    have out : s.memberInStep = false := State.memberInStep_of_step (by simp [behind])
    obtain ⟨beat, pending, _, _⟩ := h.watches ok
    refine State.watchesOk_of_watchMembers (p := s.pres) rfl (fun running => ?_) fun set => ?_
    · exact absurd (beat running) (by simp [out])
    · exact absurd (pending set) (by simp [out])
  generalize held.foldl State.applyHeld (s.replaceReplicated sn t) = u at a ⊢
  have closed : r.Tracks { u with cu := { u.cu with
      phase := .idle, syncreqPending := false, vetoRun := 0, attempts := 0, holdBack := [], wait := .stopped
      snapshot := none } } :=
    { standing := State.standingOk_iff.2 ⟨a.rank, iff_of_false a.notBehind (by simp), nofun⟩
      table := fun _ => a.table table
      watches := fun ok => a.watches (watches ok) }
  unfold State.closeCatchUp
  dsimp only
  split
  · exact closed.of_same rfl
  · exact closed

/-- R93, R159: the station state is settled against the installed roster. -/
theorem settleInstall (h : r.Tracks s) (on : s.order.step = .inStep) (base : Seq) : r.Follows (s.settleInstall base) := by
  have locked := (h.rank.of_following (by simp [on])).2.1
  have dropped : r.Tracks { s with cu := s.cu.dropServes } := h.of_same rfl
  unfold State.settleInstall
  dsimp only
  split
  · next state => 
    have same := h.follows (State.memberInStep_of_state (by simp [state]))
    exact same.of_same rfl
  · next state =>
    have member : s.memberInStep = true := by simp [State.memberInStep, state, on]
    split
    · refine ⟨⟨h.standing, h.table, fun ok => ?_⟩, fun _ _ => rfl⟩
      obtain ⟨_, pending, evict, absence⟩ := h.watches ok
      exact ⟨fun _ => member, pending, evict, absence⟩
    · exact (dropped.enterJoining (by simp [on]) _ _ _).clearSlots _ _ _
  · next state =>
    split
    · exact h.follows (State.memberInStep_of_state (by simp [state]))
    · exact ((State.Outside.enterOut locked rfl _ _).clearSlots _ _ _).follows
  all_goals
    next state => exact h.follows (State.memberInStep_of_state (by simp [state]))

theorem install (h : r.Follows s) (behind : s.order.step = .behind) {sn : Snapshot} {t : Table}
    (accepted : candidate s.cfg sn = some t) : r.Follows (s.install sn t) := by
  have closed := h.closedCatchUp behind accepted (heldAfter s.cu.holdBack sn.base)
  unfold State.install
  dsimp only
  refine bump ?_ _
  split
  · next on =>
    have settled := settleInstall closed on sn.base
    split
    · exact settled.of_slotRest (revalidate_slotRest _ _)
    · exact settled
  · next out => exact closed.follows (State.memberInStep_of_step out)

theorem attemptInstall (h : r.Follows s) (behind : s.order.step = .behind) (sn : Snapshot) :
    r.Follows (s.attemptInstall sn) := by
  have locked := h.locked (by simp [behind])
  unfold State.attemptInstall
  split
  · exact ((State.Outside.enterOut locked rfl _ _).clearSlots _ _ _).follows
  · split
    · exact h.failAttempt behind _
    · split
      · exact h.failAttempt behind _
      · next accepted => exact h.install behind accepted

theorem storeSnapshot (h : r.Follows s) (behind : s.order.step = .behind) (sn : Snapshot) :
    r.Follows (s.storeSnapshot sn) := by
  have stored : r.Follows { s with cu := { s.cu with
      snapshot := some sn, phase := .receiving, wait := .running s.cfg.absenceTime } } :=
    h.phase_moves behind _ nofun
  unfold State.storeSnapshot
  dsimp only
  split
  · exact stored.attemptInstall behind _
  · exact stored

/-- R114: a requester at work is BEHIND. -/
theorem behind_of_phase (h : r.Follows s) (busy : s.cu.phase ≠ .idle) : s.order.step = .behind := h.phase.1.2 busy

theorem snapHeader (h : r.Follows s) (x : StationNo) (base : Seq) (count : Byte) (digest members inUse fp : Half)
    (lastTaken : List Seq) : r.Follows (s.snapHeader x base count digest members inUse fp lastTaken) := by
  unfold State.snapHeader
  split
  · exact h
  · exact h
  · next phase => exact h.storeSnapshot (h.behind_of_phase (by simp [phase])) _
  · next phase => exact h.storeSnapshot (h.behind_of_phase (by simp [phase])) _

theorem snapRecord (h : r.Follows s) (x : StationNo) (base : Seq) (index count : Byte) (p : RecordPart) :
    r.Follows (s.snapRecord x base index count p) := by
  unfold State.snapRecord
  split
  · exact h
  · exact h
  · next phase => exact h.failAttempt (h.behind_of_phase (by simp [phase])) _
  · next phase _ => exact h.failAttempt (h.behind_of_phase (by simp [phase])) _
  · next phase _ =>
    have behind := h.behind_of_phase (by simp [phase])
    repeat' split
    · exact h
    · exact h.storeSnapshot behind _
    · exact h.failAttempt behind _

theorem hearSnap (h : r.Follows s) (f : Frame) : r.Follows (s.hearSnap f) := by
  unfold State.hearSnap
  dsimp only
  repeat' split
  all_goals first | exact h | exact h.snapHeader _ _ _ _ _ _ _ _ | exact h.snapRecord _ _ _ _ _

/-! ### Outcomes (R39 to R43, R65, R66) -/

theorem castVote (h : r.Follows s) (v : Vote) : r.Follows (s.castVote v) := by
  cases v <;> exact h.of_same rfl

/-- R87, R88: adoption, with the configuration locked. -/
theorem adopt (locked : s.mem.locked = true) (f : Frame) (d : Half) : r.Follows (s.adopt f d) := by
  have joins : r.Follows ((s.adoptGroup f.sender d f.seq).enterJoining true .adopted (some f.seq)) := by
    rw [enterJoining_eq]
    exact
      { standing := State.standingOk_iff.2
          ⟨State.rankOk_of rfl nofun locked rfl, iff_of_false nofun fun busy => busy rfl, nofun⟩
        table := fun _ => ⟨Table.empty_ok _, nofun⟩
        watches := fun _ => State.watchesOk_of_quiesce rfl (Presence.watchMembers_watches _ _ _ _)
        beat := fun _ => State.beatOk_of (State.memberInStep_of_state nofun) }
  have leaves {st : StationState} (out : st.isOut = true) (c : Cause) (u : State) (same : u.mem = s.mem) :
      r.Follows ((u.enterOut st c (some f.seq)).clearSlots .lost c (some f.seq)) :=
    ((State.Outside.enterOut (same ▸ locked) out _ _).clearSlots _ _ _).follows
  unfold State.adopt
  dsimp only
  split
  · exact leaves rfl _ _ rfl
  · split
    · exact leaves rfl _ _ rfl
    · exact joins.clearSlots _ _ _
    all_goals exact joins

/-- A station that is not IDLE has its configuration locked. -/
theorem locked_of_state (h : r.Follows s) (out : s.mem.state ≠ .idle) : s.mem.locked = true := h.rank.2.2.1.2 out

theorem hearTaken (h : r.Follows s) (off : s.order.step = .off) (locked : s.mem.locked = true) (f : Frame) :
    r.Follows (s.hearTaken f) := by
  unfold State.hearTaken
  split
  · exact adopt locked _ _
  · exact (h.joinBehind off locked _ _).keepBack _ _ _

@[simp] theorem record_step (s : State) (q : Seq) : (s.record q).order.step = s.order.step := by
  unfold State.record
  split <;> rfl

@[simp] theorem record_mem (s : State) (q : Seq) : (s.record q).mem = s.mem := by
  unfold State.record
  split <;> rfl

theorem taken (h : r.Follows s) (f : Frame) (v : Vote) : r.Follows (s.taken f v) := by
  have recorded := h.record f.seq
  unfold State.taken
  dsimp only
  split
  · next on =>
    split
    · exact h.applyFrame on _ _ _ _
    · exact (recorded.enterBehind (by simp [on])).keepBack _ _ _
    all_goals exact recorded
  · next behind =>
    split
    · exact adopt (recorded.locked (by simp [behind])) _ _
    · exact recorded.keepBack _ _ _
  · next off =>
    split
    · next state => exact recorded.hearTaken (by simp [off]) (recorded.locked_of_state (by simp [state])) _
    · next state => exact recorded.hearTaken (by simp [off]) (recorded.locked_of_state (by simp [state])) _
    all_goals exact recorded

theorem vetoed (h : r.Follows s) (v : Vote) : r.Follows (s.vetoed v) := by
  unfold State.vetoed
  repeat' split
  · next on => exact h.enterBehind (by simp [on])
  · exact h
  · next on => exact h.enterBehind (by simp [on])
  all_goals exact h

theorem outcomeHeard (h : r.Follows s) (x : Received) (v : Vote) (b : Bool) : r.Follows (s.outcomeHeard x v b) := by
  unfold State.outcomeHeard
  split
  · exact ((h.bump _).taken _ _).heardFrom _
  · exact (h.restartListen.vetoed _).heardFrom _
  · exact h
  · exact h.vetoed _

theorem countOwnVeto (h : r.Follows s) (on : s.order.step = .inStep) : r.Follows s.countOwnVeto := by
  have counted : r.Follows { s with order := { s.order with ownRun := min (s.order.ownRun + 1) Config.ownRunLimit } } :=
    h.of_same rfl
  unfold State.countOwnVeto
  dsimp only
  split
  · exact counted.enterBehind (by simp [on])
  · exact counted

theorem syncreqUnsent (h : r.Follows s) (behind : s.order.step = .behind) : r.Follows s.syncreqUnsent := by
  have counted (n : Nat) : r.Follows { s with cu := { s.cu with vetoRun := n } } := h.of_same rfl
  unfold State.syncreqUnsent
  dsimp only
  split
  · exact counted _
  · exact (counted 0).failAttempt behind _

/-- R85: the own FOUND of a FOUNDING station is vetoed. -/
theorem foundVetoed (h : r.Follows s) (state : s.mem.state = .founding) : r.Follows s.foundVetoed := by
  have off : s.order.step = .off := by
    by_contra inGroup
    have := (h.rank.of_following inGroup).1
    simp [state, StationState.follows] at this
  exact h.joinBehind off (h.locked_of_state (by simp [state])) _ _

theorem sourceTold (h : r.Follows s) (a : Attempt) (fault : Bool) : r.Follows (s.sourceTold a fault) := by
  unfold State.sourceTold
  split
  · exact h.of_slotRest (entryUnsent_slotRest _ _)
  · repeat' split
    · exact h
    · next state => exact h.foundVetoed state
    · exact h
  · split
    · next behind => exact h.syncreqUnsent behind
    · exact h
  all_goals exact h

theorem ownUnsent (h : r.Follows s) (a : Attempt) (fault : Bool) : r.Follows (s.ownUnsent a fault) := by
  have told := (h.bump .ownVetoed).sourceTold a fault
  rw [ownUnsent_eq]
  dsimp only
  split
  · next counts => exact told.countOwnVeto counts.2.1
  · exact told

theorem ownLost (h : r.Follows s) (a : Attempt) : r.Follows (s.ownLost a) := by
  have counted := h.bump .arbitrationLosses
  unfold State.ownLost
  dsimp only
  split
  · exact counted.of_slotRest (entryUnsent_slotRest _ _)
  all_goals exact counted

theorem leaveSource (h : r.Follows s) (src : Source) : r.Follows (s.leaveSource src) := by
  cases src with
  | beat =>
    refine ⟨⟨h.standing, h.table, fun ok => ?_⟩, h.beat⟩
    obtain ⟨beat, _, evict, absence⟩ := h.watches ok
    exact ⟨beat, nofun, evict, absence⟩
  | _ => exact h.of_same rfl

/-- R85: the own FOUND of a FOUNDING station, outside the group, is taken. -/
theorem foundTaken (h : r.Follows s) (off : s.order.step = .off) (state : s.mem.state = .founding) (f : Frame) :
    r.Follows (s.foundTaken f) := by
  have locked := h.locked_of_state (by simp [state])
  have idle : s.cu.phase = .idle := by
    by_contra busy
    exact absurd (h.phase.1.2 busy) (by simp [off])
  have silent : s.mem.listen.isRunning = false := by
    refine Bool.eq_false_iff.2 fun running => ?_
    simpa [state] using h.rank.2.2.2.1 running
  unfold State.foundTaken
  split
  · exact h
  · next me number =>
    refine ⟨⟨State.standingOk_iff.2 ⟨State.rankOk_of rfl nofun locked silent, ?_⟩, fun _ => ⟨Table.empty_ok _, nofun⟩,
      fun ok => ?_⟩, fun _ _ => rfl⟩
    · exact ⟨iff_of_false nofun fun busy => busy idle, fun running => absurd idle (h.phase.2 running)⟩
    · obtain ⟨_, _, _, absence⟩ := h.watches ok
      have alone (n : StationNo) : s.pres.absence[n] = .stopped := by
        by_contra runs
        have := ((absence n).1 runs).1
        simp [(h.rank.2.1 off).2] at this
      refine ⟨fun _ => rfl, fun _ => rfl, fun _ _ => rfl, fun n => ?_⟩
      refine iff_of_false (fun runs => runs (alone n)) fun ⟨isMember, other⟩ => ?_
      have same : n = me := by simpa using (Roster.isMember_add Roster.empty me n f.seq).symm.trans isMember
      exact other (same ▸ number)

/-- R118, R119: the own SYNCREQ of a station BEHIND is taken. -/
theorem syncreqTaken (h : r.Follows s) (behind : s.order.step = .behind) (f : Frame) : r.Follows (s.syncreqTaken f) := by
  have kept := h.keepBack true f false
  exact kept.phase_moves behind _ nofun

theorem ownTaken (h : r.Follows s) (a : Attempt) : r.Follows (s.ownTaken a) := by
  have left := (h.bump .framesTaken).leaveSource a.source
  have cleared : r.Follows { (s.bump .framesTaken).leaveSource a.source with
      order := { ((s.bump .framesTaken).leaveSource a.source).order with ownRun := 0 } } := left.of_same rfl
  have order : ((s.bump .framesTaken).leaveSource a.source).order = s.order := by cases a.source <;> rfl
  have state : ((s.bump .framesTaken).leaveSource a.source).mem.state = s.mem.state := by cases a.source <;> rfl
  unfold State.ownTaken
  dsimp only
  generalize (s.bump .framesTaken).leaveSource a.source = u at cleared order state ⊢
  split
  · next on => exact cleared.applyFrame (by simpa [order] using on) _ _ _ _
  · next behind =>
    split
    · exact (cleared.record _).syncreqTaken (by simpa [order] using behind) _
    · exact cleared.record _
  · next off =>
    split
    · next founds =>
      exact (cleared.record _).foundTaken (by simpa [order] using off) (by simpa [state] using founds.2) _
    · exact cleared.record _

theorem deliverFault (h : r.Follows s) (x : Option Faulted) : r.Follows (s.deliverFault x) := by
  cases x with
  | none => exact h
  | some fa => exact h.ownUnsent _ _

theorem frameEnds (h : r.Follows s) (x : Received) : r.Follows (s.frameEnds x) := by
  cases x with
  | good f =>
    simp only [State.frameEnds]
    split
    · exact (((h.line _).hearSnap f).restartListen).heardFrom _
    · exact (h.line _).castVote _
  | failed => exact ((h.bump .checkFailures).line _).castVote _
  | malformed => exact ((h.bump .checkFailures).line _).castVote _

/-! ### Requests (R178) -/

theorem giveUp (h : r.Follows s) (c : ReleaseCause) (t : Tag) : r.Follows (State.giveUp c s t) :=
  h.of_slotRest (giveUp_slotRest s t c)

/-- R94: DEPART of a MEMBER in step. -/
theorem enterLeaving (h : r.Follows s) (on : s.memberInStep = true) : r.Follows s.enterLeaving := by
  simp only [State.memberInStep, Bool.and_eq_true, decide_eq_true_eq] at on
  have ⟨_, locked, silent⟩ := h.rank.of_following (by simp [on])
  exact
    { standing := State.standingOk_iff.2
        ⟨State.rankOk_of rfl (by simp [State.enterLeaving, on]) locked silent, h.phase⟩
      table := h.table
      watches := fun ok => (h.watches ok).quiesce rfl rfl rfl
      beat := fun _ => State.beatOk_of (State.memberInStep_of_state nofun) }

/-- R180: a SETUP comes while IDLE, when the table is empty. -/
theorem configure (h : r.Follows s) (idle : s.mem.state = .idle) (b : SetupBody) : r.Follows (s.configure b) where
  standing := h.standing
  table _ := by
    have off : s.order.step = .off := by
      by_contra inGroup
      have := (h.rank.of_following inGroup).1
      simp [idle, StationState.follows] at this
    have empty : (s.configure b).table = Table.empty := (h.rank.2.1 off).1
    refine ⟨empty ▸ Table.empty_ok _, ?_⟩
    rw [State.ownersOk, empty]
    exact nofun
  watches := h.watches
  beat := h.beat

/-- R1, R31, R75, R78, R100, R114: the values after a reset. -/
theorem of_reset (state : t.mem.state = .idle) (locked : t.mem.locked = false) (listen : t.mem.listen = .stopped)
    (order : t.order = Order.initial) (table : t.table = Table.empty) (roster : t.roster = Roster.empty)
    (pres : t.pres = Presence.stopped) (cu : t.cu = CatchUp.idle) : r.Follows t :=
  State.Outside.follows
    { state := by rw [state]; rfl
      off := by rw [order]; rfl
      table := table
      roster := roster
      pres := pres
      phase := by rw [cu]; rfl
      silent := by rw [cu]; rfl
      locked := by simp [locked, state]
      listen := by simp [listen, state, Timer.isRunning] }

theorem processing (h : r.Follows s) {a : Answer} (answer : Processing s a) : r.Follows a.state := by
  cases answer with
  | denied k => exact h
  | configured b _ idle _ => exact h.configure idle b
  | started _ =>
    have listening : r.Follows (State.enterListening { s with mem := { s.mem with locked := true } } .start none) :=
      (State.Outside.enterListening rfl _ _).follows
    dsimp only [State.startHostCheck]
    split
    · exact listening
    · exact listening.of_same rfl
  | restarted => exact of_reset rfl rfl rfl rfl rfl rfl rfl rfl
  | opened t zones units hold data => exact h.of_same rfl
  | freed t => exact h.giveUp .host t
  | cancelled t => exact h.of_slotRest (cancelSlot_slotRest s t)
  | surrendered =>
    dsimp only
    exact h.of_slotRest (surrender_slotRest s)
  | departed on => exact h.enterLeaving on
  | rejoined isOut =>
    refine (State.Outside.enterListening (h.locked_of_state ?_) _ _).follows
    intro idle
    simp [idle, StationState.isOut] at isOut
  | shown data => exact h
  | pointed cursor data => exact h.of_same rfl
  | took count data => exact h.of_same rfl
  | tallied data => exact h.of_same rfl

theorem processed (h : r.Follows s) (touch : Bool) (code : Byte) {a : Answer} (answer : Processing s a) :
    r.Follows ((if touch then a.state.touchHostCheck else a.state).respond code a.code a.data) := by
  have effect := h.processing answer
  cases touch <;> exact effect.of_same rfl

/-! ### Every happening -/

/-- R83: the listen timer runs out: FOUNDING, with the timer stopped. -/
theorem listenExpired (h : r.Follows s) (listening : s.mem.state = .listening) : r.Follows s.listenExpired := by
  obtain ⟨follows, off, locked, _⟩ := h.rank
  have out : s.order.step = .off := by
    by_contra inGroup
    simpa [listening, StationState.follows] using follows.2 inGroup
  refine ⟨⟨State.standingOk_iff.2 ⟨⟨?_, off, ?_, ?_⟩, h.phase⟩, h.table, fun ok => ?_⟩,
    fun _ => State.beatOk_of (State.memberInStep_of_state nofun)⟩
  · exact iff_of_false nofun (by simp [State.listenExpired, out])
  · exact iff_of_true (locked.2 (by simp [listening])) nofun
  · exact iff_of_false nofun nofun
  · have was : s.memberInStep = false := State.memberInStep_of_state (by simp [listening])
    obtain ⟨beat, pending, evict, absence⟩ := h.watches ok
    exact ⟨fun running => absurd (beat running) (by simp [was]), fun set => absurd (pending set) (by simp [was]),
      fun n flag => absurd (evict n flag) (by simp [was]), absence⟩

/-- R107: an absence timer runs out at a MEMBER in step, and is held expired. -/
theorem evictFlagSets (h : r.Follows s) {n : StationNo} (running : s.pres.absence[n].isRunning = true)
    (on : s.memberInStep = true) :
    r.Follows { s with pres := { s.pres with absence := s.pres.absence.set n .expired } } where
  standing := h.standing
  table := h.table
  watches ok := by
    obtain ⟨beat, pending, _, absence⟩ := h.watches ok
    refine ⟨beat, pending, fun _ _ => on, fun k => (Iff.trans ?_ (absence k))⟩
    have at_ : (s.pres.absence.set n .expired)[k] = if n = k then .expired else s.pres.absence[k] := by
      simp [Vector.getElem_set, Fin.ext_iff]
    dsimp only
    rw [at_]
    split
    · next same =>
      refine iff_of_true nofun fun stopped => ?_
      rw [same, stopped] at running
      cases running
    · rfl
  beat := h.beat

theorem of_happens (h : r.Follows s) (happens : Happens s t) : r.Follows t := by
  cases happens with
  | hardReset x b => exact of_reset rfl rfl rfl rfl rfl rfl rfl rfl
  | cutOff p => exact h.of_same rfl
  | ssnFalls _ => exact h.of_same rfl
  | ssnRises bytes cut =>
    unfold State.ssnRises
    split
    · exact h
    · exact h.of_same rfl
    · exact h.of_same rfl
  | processed touch code a answer => exact h.processed touch code answer
  | lineHears levels l _ _ => exact h.line _
  | lineSettles levels l _ _ => exact h.line _
  | lineSticks levels l _ _ => exact (h.line _).emit _
  | lineClears levels l _ _ => exact (h.line _).emit _
  | frameStarts levels _ _ => exact h.line _
  | attemptStarts a _ =>
    unfold State.startAttempt Order.countAttempt
    split
    · exact h.of_same rfl
    · exact h.line _
  | quietCounts bits _ => exact h.line _
  | attemptLost a levels read _ _ => exact (h.line _).ownLost a
  | attemptFaults a levels read _ _ => exact h.line _
  | frameBreaks _ => exact ((h.line _).bump _).deliverFault _
  | remainsEnd _ => exact h.line _
  | frameEnds x _ => exact h.frameEnds x
  | slotPasses _ => exact (h.line _).deliverFault _
  | outcome x v b _ => exact (((h.line _).outcomeHeard x v b).line _).deliverFault _
  | ownTaken a _ => exact (h.line _).ownTaken a
  | ownUnsent a _ => exact (h.line _).ownUnsent a false
  | partSent a _ =>
    have quiet : r.Follows { s with line := s.line.toQuiet, order := { s.order with ownRunOf := none } } := h.of_same rfl
    exact quiet.partSent
  | listenExpires listening => exact h.listenExpired listening
  | beatExpires running =>
    refine ⟨⟨h.standing, h.table, fun ok => ?_⟩, fun _ _ => rfl⟩
    obtain ⟨beat, _, evict, absence⟩ := h.watches ok
    exact ⟨fun _ => beat running, fun _ => beat running, evict, absence⟩
  | evictFlagSets n running on => exact h.evictFlagSets running on
  | absenceRestarts n running =>
    refine h.startAbsence (fun stopped => ?_) _
    rw [stopped] at running
    cases running
  | catchupWaitExpires running => exact h.failAttempt (h.behind_of_phase (h.phase.2 running)) _
  | holdExpires k => exact (h.emit (slotEvent .holdExpired k none none)).giveUp .hold k
  | hostCheckExpires =>
    have given : r.Follows (s.emit { kind := .hostSilent }).surrender :=
      (h.emit { kind := .hostSilent }).of_slotRest (surrender_slotRest _)
    dsimp only
    generalize (s.emit { kind := .hostSilent }).surrender = u at given ⊢
    exact given.of_same rfl
  | idleTimerExpires _ => exact h.of_same rfl
  | zoneLinesMove zl => exact h.of_same rfl
  | edgeArrives zl z =>
    have moved : r.Follows { s with zl := zl } := h.of_same rfl
    exact moved.of_slotRest (releaseZone_slotRest _ z)

theorem tick (h : r.Follows s) : r.Follows s.tick := by
  have ticked (n : StationNo) : s.tick.pres.absence[n] = s.pres.absence[n].tick := by simp [State.tick]
  have stopped (n : StationNo) : s.tick.pres.absence[n] ≠ .stopped ↔ s.pres.absence[n] ≠ .stopped := by
    rw [ticked]
    cases s.pres.absence[n] <;> simp [Watch.tick]
  have expired (n : StationNo) (flag : s.tick.pres.evictFlag n = true) : s.pres.evictFlag n = true := by
    simp only [Presence.evictFlag, ticked, decide_eq_true_eq] at flag ⊢
    cases hw : s.pres.absence[n] <;> simp [hw, Watch.tick] at flag ⊢
  have beatRuns : s.tick.pres.beat.isRunning = s.pres.beat.isRunning := Timer.tick_isRunning _
  refine ⟨⟨State.standingOk_iff.2 ⟨?_, ?_⟩, h.table, fun ok => ?_⟩, fun ok member => beatRuns.trans (h.beat ok member)⟩
  · obtain ⟨follows, off, locked, listen⟩ := h.rank
    have listens : s.tick.mem.listen.isRunning = s.mem.listen.isRunning := Timer.tick_isRunning _
    exact ⟨follows, off, locked, listens ▸ listen⟩
  · exact ⟨h.phase.1, fun running => h.phase.2 ((Timer.tick_isRunning _).symm.trans running)⟩
  · obtain ⟨beat, pending, evict, absence⟩ := h.watches ok
    exact ⟨fun running => beat (beatRuns.symm.trans running), pending, fun n flag => evict n (expired n flag),
      fun n => (stopped n).trans (absence n)⟩

theorem bitTime (h : r.Follows s) : r.Follows s.bitTime := by
  unfold State.bitTime
  split
  · exact h.tick.line _
  · exact h.line _

/-- Standing holds after a step from a state in which it holds, and table and presence timers stay in order. -/
theorem of_step {s t : State} (h : s.standingOk) (next : step s = .next t) : s.Follows t :=
  step_keeps (I := s.Follows) next (.refl h) (fun _ keeps => keeps.of_same rfl) (fun _ _ keeps happens => keeps.of_happens happens)
    fun _ keeps => keeps.bitTime

end State.Follows

/-- Settles O55, happening by happening (`State.Follows.of_happens`). -/
theorem everyStepKeepsTheStanding : Obligations.EveryStepKeepsTheStanding := by
  intro s t standing next
  exact (State.Follows.of_step standing next).standing

/-- Settles O56: the table operations keep the table in order (`Table.ok.apply`, `candidate_ok`), and membership and table
are always moved together. -/
theorem everyStepKeepsTheTable : Obligations.EveryStepKeepsTheTable := by
  intro s t standing table owners next
  exact (State.Follows.of_step standing next).table ⟨table, owners⟩

/-- Settles O57: the timers of a state kept in step with the roster, and the beat timer with the standing. -/
theorem everyStepKeepsThePresence : Obligations.EveryStepKeepsThePresence := by
  intro s t standing presence next
  have follows := State.Follows.of_step standing next
  exact State.presenceOk_iff.2 ⟨follows.watches presence, follows.beat presence⟩

end Sys2Proof.Machine

/-! # What whole families of commands leave alone (R71, R73, R173, R178) -/

namespace Sys2Proof.Machine

/-! ### The line's and the timers' commands -/

/-- What no operation that follows the group touches, the line interface apart. -/
def State.offLine (s : State) : GroupRest := { s.groupRest with line := LineIf.initial }

theorem offLine_of_groupRest {s t : State} (same : t.groupRest = s.groupRest) : t.offLine = s.offLine := by
  rw [State.offLine, State.offLine, same]

@[simp] theorem offLine_line (s : State) (l : LineIf) : State.offLine { s with line := l } = s.offLine := rfl

/-- The commands of the line, and the expiries that are about the group or about one slot. -/
def followsGroup : Instr → Bool
  | .lineSettled .. | .lineFrameStart .. | .attemptStart .. | .attemptLost .. | .attemptFault .. | .frameBroken ..
  | .frameEnd .. | .frameOutcome .. | .ownFrameOutcome .. | .snapSent .. | .lineStuck .. | .lineClear ..
  | .listenTimerExpiry | .beatTimerExpiry | .absenceTimerExpiry .. | .catchupWaitExpiry | .holdTimerExpiry .. => true
  | _ => false

theorem startAttempt_offLine (s : State) (a : Attempt) : (s.startAttempt a).offLine = s.offLine := rfl

theorem frameEnds_offLine (s : State) (r : Received) : (s.frameEnds r).offLine = s.offLine := by
  have heard (u : State) (l : LineIf) (v : Vote) : (State.castVote { u with line := l } v).offLine = u.offLine :=
    (offLine_of_groupRest (castVote_groupRest { u with line := l } v)).trans (offLine_line u l)
  cases r with
  | good f =>
    simp only [State.frameEnds]
    split
    · exact (offLine_of_groupRest ((heardFrom_groupRest _ _).trans
        ((restartListen_groupRest _).trans (hearSnap_groupRest _ f)))).trans rfl
    · exact heard s _ _
  | failed => exact (heard _ _ _).trans (offLine_of_groupRest (bump_groupRest s _))
  | malformed => exact (heard _ _ _).trans (offLine_of_groupRest (bump_groupRest s _))

theorem deliverFault_offLine (s : State) (l : LineIf) (x : Option Faulted) :
    (State.deliverFault { s with line := l } x).offLine = s.offLine :=
  (offLine_of_groupRest (deliverFault_groupRest { s with line := l } x)).trans (offLine_line s l)

theorem outcomeHeard_offLine (s : State) (r : Received) (v : Vote) (recessive : Bool) :
    (s.outcomeHeard r v recessive).offLine = s.offLine := offLine_of_groupRest (outcomeHeard_groupRest s r v recessive)

/-- R52 to R66, R83, R102, R107, R128, R155: what follows the group touches nothing on the host's side but events,
counters, idle timer and slots. -/
theorem exec_offLine {c : Instr} {s t : State} (group : followsGroup c = true) (h : exec c s = .next t) :
    t.offLine = s.offLine := by
  cases c with
  | lineSettled levels =>
    refine happening_keeps State.offLine (show execLineSettled s levels = .next t from h) ?_
    split <;> rfl
  | lineFrameStart levels => exact happening_keeps State.offLine (show execLineFrameStart s levels = .next t from h) rfl
  | attemptStart bits =>
    refine happening_keeps State.offLine (show execAttemptStart bits s = .next t from h) ?_
    split <;> rfl
  | attemptLost levels =>
    refine happening_keeps State.offLine (show execAttemptLost s levels = .next t from h) ?_
    repeat' split
    · exact (offLine_of_groupRest (ownLost_groupRest _ _)).trans rfl
    all_goals rfl
  | attemptFault levels =>
    refine happening_keeps State.offLine (show execAttemptFault levels s = .next t from h) ?_
    repeat' split
    all_goals rfl
  | frameBroken levels =>
    exact happening_keeps State.offLine (show execFrameBroken s levels = .next t from h) ((offLine_of_groupRest ((deliverFault_groupRest _ _).trans (bump_groupRest _ _))).trans rfl)
  | frameEnd levels =>
    refine happening_keeps State.offLine (show execFrameEnd levels s = .next t from h) ?_
    repeat' split
    · rfl
    · rfl
    · exact frameEnds_offLine s _
  | frameOutcome others =>
    refine happening_keeps State.offLine (show execFrameOutcome others s = .next t from h) ?_
    dsimp only
    split
    · rfl
    · exact deliverFault_offLine s _ _
    · exact deliverFault_offLine s _ _
    · exact (deliverFault_offLine _ _ _).trans (outcomeHeard_offLine _ _ _ _)
  | ownFrameOutcome levels =>
    refine happening_keeps State.offLine (show execOwnFrameOutcome levels s = .next t from h) ?_
    repeat' split
    · rfl
    · exact (offLine_of_groupRest (ownTaken_groupRest _ _)).trans rfl
    · exact (offLine_of_groupRest (ownUnsent_groupRest _ _ _)).trans rfl
    · rfl
  | snapSent levels =>
    refine happening_keeps State.offLine (show execSnapSent levels s = .next t from h) ?_
    repeat' split
    · rfl
    · rfl
    · exact (offLine_of_groupRest (partSent_groupRest _)).trans rfl
  | lineStuck levels =>
    refine happening_keeps State.offLine (show execLineStuck s levels = .next t from h) ?_
    repeat' split
    · rfl
    · exact (offLine_of_groupRest (emit_groupRest _ _)).trans rfl
    · rfl
  | lineClear levels =>
    refine happening_keeps State.offLine (show execLineClear s levels = .next t from h) ?_
    repeat' split
    · rfl
    · exact (offLine_of_groupRest (emit_groupRest _ _)).trans rfl
    · rfl
  | listenTimerExpiry => exact happening_keeps State.offLine (show execListenTimerExpiry s = .next t from h) (offLine_of_groupRest (emit_groupRest _ _))
  | beatTimerExpiry => exact happening_keeps State.offLine (show execBeatTimerExpiry s = .next t from h) rfl
  | absenceTimerExpiry n =>
    refine happening_keeps State.offLine (show execAbsenceTimerExpiry n s = .next t from h) ?_
    split <;> rfl
  | catchupWaitExpiry => exact happening_keeps State.offLine (show execCatchupWaitExpiry s = .next t from h) (offLine_of_groupRest (failAttempt_groupRest _ _))
  | holdTimerExpiry tag =>
    exact happening_keeps State.offLine (show execHoldTimerExpiry tag s = .next t from h)
      (offLine_of_groupRest ((groupRest_of_slotRest (giveUp_slotRest _ _ _)).trans (emit_groupRest _ _)))
  | _ => cases group

/-! ### Resets and transactions apart -/

/-- What only a reset, a loss of supply or a transaction touches. -/
structure Undisturbed where
  power      : Power
  number     : Option StationNo
  rate       : Rate
  strapFault : Bool
  freeCount  : Nat
  pending    : List Instr
  spi        : Spi
  sdo        : List Byte

/-- The part of a state that only a reset, a loss of supply or a transaction touches. -/
def State.undisturbed (s : State) : Undisturbed where
  power := s.power
  number := s.mem.number
  rate := s.mem.rate
  strapFault := s.mem.strapFault
  freeCount := s.freeCount
  pending := s.pending
  spi := s.port.spi
  sdo := s.port.sdo

theorem undisturbed_of_offLine {s t : State} (same : t.offLine = s.offLine) : t.undisturbed = s.undisturbed := by
  simp only [State.offLine, State.groupRest, GroupRest.mk.injEq] at same
  simp only [State.undisturbed, same]

theorem undisturbed_of_groupRest {s t : State} (same : t.groupRest = s.groupRest) : t.undisturbed = s.undisturbed :=
  undisturbed_of_offLine (offLine_of_groupRest same)

theorem undisturbed_of_slotRest {s t : State} (same : t.slotRest = s.slotRest) : t.undisturbed = s.undisturbed :=
  undisturbed_of_groupRest (groupRest_of_slotRest same)

/-- The resets, the losses and the happenings of a transaction. -/
def disturbs : Instr → Bool
  | .powerOn .. | .resetPin .. | .resetPinAsserted | .powerLoss | .ssnFallingEdge | .transactionTake .. | .statusRead ..
  | .nop | .fetch .. => true
  | _ => false

theorem Port.newIdleTimeout_eq (p : Port) (timeout : Nat) :
    p.newIdleTimeout timeout = { p with idleTimer := (p.newIdleTimeout timeout).idleTimer } := by
  unfold Port.newIdleTimeout
  repeat' split
  all_goals rfl

theorem Port.idleAfterTake_eq (p : Port) (timeout : Nat) :
    p.idleAfterTake timeout =
      { p with
        idleTimer := (p.idleAfterTake timeout).idleTimer, idleFlag := (p.idleAfterTake timeout).idleFlag } := by
  unfold Port.idleAfterTake
  repeat' split
  all_goals rfl

/-- R178: the processing of a request leaves transaction and straps alone. -/
theorem Processing.undisturbed {s : State} {a : Answer} (answer : Processing s a) :
    a.state.undisturbed = s.undisturbed := by
  cases answer with
  | configured b _ _ _ =>
    simp only [State.configure]
    rw [Port.newIdleTimeout_eq]
    rfl
  | started _ =>
    have listening (u : State) : (u.enterListening .start none).undisturbed = u.undisturbed :=
      undisturbed_of_groupRest (enterListening_groupRest u _ _)
    dsimp only [State.startHostCheck]
    split
    · exact listening _
    · exact listening { s with mem := { s.mem with locked := true } }
  | freed t => exact undisturbed_of_slotRest (freeSlot_slotRest s t .host)
  | cancelled t => exact undisturbed_of_slotRest (cancelSlot_slotRest s t)
  | surrendered =>
    dsimp only
    exact undisturbed_of_slotRest (surrender_slotRest s)
  | departed _ => exact (undisturbed_of_groupRest (emit_groupRest _ _)).trans rfl
  | rejoined _ => exact undisturbed_of_groupRest (enterListening_groupRest s _ _)
  | took count data =>
    dsimp only
    rw [Port.idleAfterTake_eq]
    rfl
  | _ => rfl

theorem respond_undisturbed (s : State) (touch : Bool) (code : Byte) (k : RespCode) (data : List Byte) :
    ((if touch then s.touchHostCheck else s).respond code k data).undisturbed = s.undisturbed := by
  cases touch <;> rfl

theorem process_undisturbed {c : Instr} {touch : Bool} {effect : State → Answer} {s t : State}
    (h : process c touch effect s = .next t) (answer : Processing s (effect s)) : t.undisturbed = s.undisturbed := by
  refine happening_keeps State.undisturbed h ?_
  dsimp only
  split
  · rfl
  · exact (respond_undisturbed _ _ _ _ _).trans answer.undisturbed

/-- R156: UNKNOWN alone leaves the host-check timer as it is. -/
def touches : Instr → Bool
  | .unknown _ => false
  | _ => true

/-- R142 to R145, R180 to R191: what the processing of each request does. -/
def effectOf : Instr → State → Answer
  | .setup b, s => s.setup b
  | .start, s => s.start
  | .restart, s => { state := s.softReset, code := .ok }
  | .ask flags lo hi units hold, s => s.ask (askZones flags lo hi) units.toNat hold.toNat
  | .free tag, s => s.onSlot tag fun t => s.freeSlot t .host
  | .cancel tag, s => s.onSlot tag fun t => s.cancelSlot t
  | .surrender, s => if s.memberFlag then { state := s.surrender, code := .ok } else s.deny .state
  | .depart, s => if s.memberInStep then { state := s.enterLeaving, code := .ok } else s.deny .state
  | .rejoin, s => if s.mem.state.isOut then { state := s.enterListening .rejoin none, code := .ok } else s.deny .state
  | .status, s => { state := s, code := .ok, data := s.statusRecord }
  | .view code index auto, s =>
    match cursorOf code index auto with
    | some c => { state := { s with port := { s.port with cursor := c } }, code := .ok }
    | none => s.deny .badArg
  | .read count, s => s.read count.toNat
  | .take count, s => s.take count.toNat
  | .tally, s =>
    { state := { s with port := { s.port with counters := Vector.replicate 28 0 } }
      code := .ok
      data := s.port.counters.toList.flatMap halfBytes }
  | _, s => s.deny .unknown

/-- R178: the command of a request is its processing. -/
theorem exec_request {c : Instr} {q : Request} (stands : requestOf c = some q) (s : State) :
    exec c s = process c (touches c) (effectOf c) s := by
  cases c <;> first | rfl | cases stands

theorem effectOf_processing {c : Instr} {q : Request} (stands : requestOf c = some q) (s : State) :
    Processing s (effectOf c s) := by
  cases c with
  | setup b => exact s.setup_processing b
  | start => exact s.start_processing
  | restart => exact .restarted
  | ask flags lo hi units hold => exact s.ask_processing _ _ _
  | free tag => exact s.onSlot_processing tag _ fun t => .freed t
  | cancel tag => exact s.onSlot_processing tag _ fun t => .cancelled t
  | surrender => exact s.surrender_processing
  | depart => exact s.depart_processing
  | rejoin => exact s.rejoin_processing
  | status => exact .shown _
  | view code index auto => exact s.view_processing code index auto
  | read count => exact s.read_processing _
  | take count => exact s.take_processing _
  | tally => exact .tallied _
  | unknown code => exact .denied _
  | _ => cases stands

theorem exec_undisturbed {c : Instr} {s t : State} (calm : disturbs c = false) (h : exec c s = .next t) :
    t.undisturbed = s.undisturbed := by
  by_cases group : followsGroup c = true
  · exact undisturbed_of_offLine (exec_offLine group h)
  · cases stands : requestOf c with
    | some q =>
      rw [exec_request stands] at h
      exact process_undisturbed h (effectOf_processing stands s)
    | none =>
      cases c with
      | hostCheckExpiry =>
        have given :=
          undisturbed_of_slotRest ((surrender_slotRest (s.emit { kind := .hostSilent })).trans (emit_slotRest s _))
        refine happening_keeps State.undisturbed (show execHostCheckExpiry s = .next t from h) ?_
        dsimp only
        generalize (s.emit { kind := .hostSilent }).surrender = u at given ⊢
        exact given
      | idleTimerExpiry => exact happening_keeps State.undisturbed (show execIdleTimerExpiry s = .next t from h) rfl
      | releaseInPinChange line high =>
        refine happening_keeps State.undisturbed (show execReleaseInPinChange line high s = .next t from h) ?_
        dsimp only
        split <;> rfl
      | qualificationExpiry line =>
        exact happening_keeps State.undisturbed (show execQualificationExpiry line s = .next t from h) rfl
      | releaseEdge zone =>
        exact happening_keeps State.undisturbed (show execReleaseEdge zone s = .next t from h)
          ((undisturbed_of_slotRest (releaseZone_slotRest _ zone)).trans rfl)
      | powerOn | resetPin | resetPinAsserted | powerLoss | ssnFallingEdge | transactionTake | statusRead | nop | fetch =>
        cases calm
      | setup | start | restart | ask | free | cancel | surrender | depart | rejoin | status | view | read | take | tally
      | unknown => cases stands
      | _ => exact absurd rfl group

/-! ### Straps and transactions (R73, R173) -/

/-- R173 to R177: the rise of SSN is on the port. -/
theorem ssnRises_eq (s : State) (bytes : List Byte) (cut : Bool) :
    s.ssnRises bytes cut =
      { s with port := (s.ssnRises bytes cut).port, freeCount := (s.ssnRises bytes cut).freeCount } := by
  unfold State.ssnRises
  split <;> rfl

theorem ssnRises_mem (s : State) (bytes : List Byte) (cut : Bool) : (s.ssnRises bytes cut).mem = s.mem := by
  rw [ssnRises_eq]

theorem ssnRises_pending (s : State) (bytes : List Byte) (cut : Bool) : (s.ssnRises bytes cut).pending = s.pending := by
  rw [ssnRises_eq]

/-- Settles O7: a transaction is on the port, a loss of supply on line and port, and nothing else reads the straps. -/
theorem strapReadingsStay : Obligations.StrapReadingsStay := by
  intro c s t h noPower noReset
  have of_mem (same : t.mem = s.mem) :
      t.mem.number = s.mem.number ∧ t.mem.rate = s.mem.rate ∧ t.mem.strapFault = s.mem.strapFault := by simp [same]
  by_cases calm : disturbs c = false
  · have same := exec_undisturbed calm h
    simp only [State.undisturbed, Undisturbed.mk.injEq] at same
    obtain ⟨_, number, rate, fault, _⟩ := same
    exact ⟨number, rate, fault⟩
  · cases c with
    | powerOn x b => exact absurd rfl (noPower x b)
    | resetPin x b => exact absurd rfl (noReset x b)
    | resetPinAsserted => exact of_mem (happening_keeps State.mem (show execResetPinAsserted s = .next t from h) rfl)
    | powerLoss => exact of_mem (happening_keeps State.mem (show execPowerLoss s = .next t from h) rfl)
    | ssnFallingEdge => exact of_mem (happening_keeps State.mem (show execSsnFallingEdge s = .next t from h) rfl)
    | transactionTake bytes cut =>
      exact of_mem (happening_keeps State.mem (show execTransactionTake bytes cut s = .next t from h) (ssnRises_mem _ _ _))
    | statusRead first cut =>
      exact of_mem (happening_keeps State.mem (show execStatusRead first cut s = .next t from h) (ssnRises_mem _ _ _))
    | nop => exact of_mem (happening_keeps State.mem (show execNop s = .next t from h) (ssnRises_mem _ _ _))
    | fetch window =>
      exact of_mem (happening_keeps State.mem (show execFetch window s = .next t from h) (ssnRises_mem _ _ _))
    | _ => exact absurd rfl calm

/-- Settles O9: what is no reset, loss of supply or happening of a transaction leaves the port's transaction alone. -/
theorem openTransactionIsUndisturbed : Obligations.OpenTransactionIsUndisturbed := by
  intro c s t h noTake noRead noNop noFetch noFall noPower noReset noAssert noLoss
  have calm : disturbs c = false := by
    cases c with
    | powerOn x b => exact absurd rfl (noPower x b)
    | resetPin x b => exact absurd rfl (noReset x b)
    | resetPinAsserted => exact absurd rfl noAssert
    | powerLoss => exact absurd rfl noLoss
    | ssnFallingEdge => exact absurd rfl noFall
    | transactionTake bytes cut => exact absurd rfl (noTake bytes cut)
    | statusRead first cut => exact absurd rfl (noRead first cut)
    | nop => exact absurd rfl noNop
    | fetch window => exact absurd rfl (noFetch window)
    | _ => rfl
  have same := exec_undisturbed calm h
  simp only [State.undisturbed, Undisturbed.mk.injEq] at same
  obtain ⟨power, _, _, _, _, _, spi, sdo⟩ := same
  exact ⟨spi, sdo, by simp only [State.sdoDrive, power, spi]⟩

/-! ### Whether a command takes place -/

/-- The commands that a part without supply or in reset takes: what ends or begins the supply, and the outside's pins. -/
def takenWhileOff : Instr → Bool
  | .powerOn .. | .resetPin .. | .powerLoss | .releaseInPinChange .. => true
  | _ => false

/-- Every command is a happening, and all but four take place on a running part only. -/
theorem exec_eq_happening (c : Instr) (s : State) :
    ∃ enabled effect, exec c s = happening enabled effect s ∧
      (takenWhileOff c = false → enabled = true → s.power = .on) := by
  cases c
  all_goals
    dsimp only [exec, execSetup, execStart, execRestart, execAsk, execFree, execCancel, execSurrender, execDepart,
      execRejoin, execStatus, execView, execRead, execTake, execTally, execUnknown, process]
  case powerOn x b => exact ⟨_, _, rfl, nofun⟩
  case resetPin x b => exact ⟨_, _, rfl, nofun⟩
  case powerLoss => exact ⟨_, _, rfl, nofun⟩
  case releaseInPinChange line high => exact ⟨_, _, rfl, nofun⟩
  all_goals
    refine ⟨_, _, rfl, fun _ enabled => (s.isOn_iff).1 ?_⟩
    revert enabled
    cases s.isOn <;> simp

/-- Settles O1. -/
theorem stepRunsTheFrontCommand : Obligations.StepRunsTheFrontCommand := by
  intro c rest s
  rfl

/-- Settles O3: every command is a happening, and a happening answers a next state. -/
theorem everyCommandAnswersNext : Obligations.EveryCommandAnswersNext := by
  intro c s
  obtain ⟨enabled, effect, same, _⟩ := exec_eq_happening c s
  exact ⟨_, same⟩

/-- A part that does not run takes four commands only. -/
theorem exec_of_notOn {c : Instr} {s t : State} (notOn : s.power ≠ .on) (other : takenWhileOff c = false)
    (h : exec c s = .next t) : t = s := by
  obtain ⟨enabled, effect, same, on⟩ := exec_eq_happening c s
  have off : enabled = false := Bool.eq_false_iff.2 fun enabled => notOn (on other enabled)
  rw [same, off, happening_false] at h
  cases h
  rfl

/-! ### The waiting queue -/

theorem exec_pending {c : Instr} {s t : State} (h : exec c s = .next t) : t.pending = s.pending := by
  by_cases calm : disturbs c = false
  · have same := exec_undisturbed calm h
    simp only [State.undisturbed, Undisturbed.mk.injEq] at same
    obtain ⟨_, _, _, _, _, pending, _⟩ := same
    exact pending
  · cases c with
    | powerOn x b => exact happening_keeps State.pending (show execPowerOn x b s = .next t from h) rfl
    | resetPin x b => exact happening_keeps State.pending (show execResetPin x b s = .next t from h) rfl
    | resetPinAsserted => exact happening_keeps State.pending (show execResetPinAsserted s = .next t from h) rfl
    | powerLoss => exact happening_keeps State.pending (show execPowerLoss s = .next t from h) rfl
    | ssnFallingEdge => exact happening_keeps State.pending (show execSsnFallingEdge s = .next t from h) rfl
    | transactionTake bytes cut =>
      exact happening_keeps State.pending (show execTransactionTake bytes cut s = .next t from h) (ssnRises_pending _ _ _)
    | statusRead first cut =>
      exact happening_keeps State.pending (show execStatusRead first cut s = .next t from h) (ssnRises_pending _ _ _)
    | nop => exact happening_keeps State.pending (show execNop s = .next t from h) (ssnRises_pending _ _ _)
    | fetch window =>
      exact happening_keeps State.pending (show execFetch window s = .next t from h) (ssnRises_pending _ _ _)
    | _ => exact absurd rfl calm

/-! ### The host's side -/

/-- The part of a state on the host's side that no command touches but resets, transactions and requests. -/
structure HostSide where
  power     : Power
  cfg       : Cfg
  ownDigest : Half
  locked    : Bool
  freeCount : Nat
  request   : Option Request
  response  : Option (List Byte)
  collided  : Bool
  cursor    : Cursor

/-- The part of a state on the host's side that no command touches but resets, transactions and requests. -/
def State.hostSide (s : State) : HostSide where
  power := s.power
  cfg := s.cfg
  ownDigest := s.mem.ownDigest
  locked := s.mem.locked
  freeCount := s.freeCount
  request := s.port.request
  response := s.port.response
  collided := s.port.collided
  cursor := s.port.cursor

theorem hostSide_of_offLine {s t : State} (same : t.offLine = s.offLine) : t.hostSide = s.hostSide := by
  simp only [State.offLine, State.groupRest, GroupRest.mk.injEq] at same
  simp only [State.hostSide, same]

theorem hostSide_of_slotRest {s t : State} (same : t.slotRest = s.slotRest) : t.hostSide = s.hostSide :=
  hostSide_of_offLine (offLine_of_groupRest (groupRest_of_slotRest same))

/-- What the commands that are no request, transaction or reset leave of the host's side. -/
structure LeavesHostSide (c : Instr) (s t : State) : Prop where
  hostSide : t.hostSide = s.hostSide
  hostCheck : c ≠ .hostCheckExpiry → t.slots.hostCheck = s.slots.hostCheck
  zoneLines : (∀ l h, c ≠ .releaseInPinChange l h) → (∀ l, c ≠ .qualificationExpiry l) → (∀ z, c ≠ .releaseEdge z) →
    t.zl = s.zl

theorem exec_leavesHostSide {c : Instr} {s t : State} (calm : disturbs c = false) (request : requestOf c = none)
    (h : exec c s = .next t) : LeavesHostSide c s t := by
  by_cases group : followsGroup c = true
  · have same := exec_offLine group h
    have hostSide := hostSide_of_offLine same
    simp only [State.offLine, State.groupRest, GroupRest.mk.injEq] at same
    exact ⟨hostSide, fun _ => by simp only [same], fun _ _ _ => by simp only [same]⟩
  · cases c with
    | hostCheckExpiry =>
      have given := (surrender_slotRest (s.emit { kind := .hostSilent })).trans (emit_slotRest s _)
      have h : execHostCheckExpiry s = .next t := h
      refine ⟨happening_keeps State.hostSide h ?_, fun other => absurd rfl other, fun _ _ _ =>
        happening_keeps State.zl h ?_⟩
      all_goals
        dsimp only
        generalize (s.emit { kind := .hostSilent }).surrender = u at given ⊢
      · have same := hostSide_of_slotRest given
        exact same
      · exact congrArg SlotRest.zl given
    | idleTimerExpiry =>
      have h : execIdleTimerExpiry s = .next t := h
      exact ⟨happening_keeps State.hostSide h rfl, fun _ => happening_keeps (fun u => u.slots.hostCheck) h rfl,
        fun _ _ _ => happening_keeps State.zl h rfl⟩
    | releaseInPinChange line high =>
      have h : execReleaseInPinChange line high s = .next t := h
      refine ⟨happening_keeps State.hostSide h ?_, fun _ => happening_keeps (fun u => u.slots.hostCheck) h ?_,
        fun other => absurd rfl (other line high)⟩
      all_goals
        dsimp only
        split <;> rfl
    | qualificationExpiry line =>
      have h : execQualificationExpiry line s = .next t := h
      exact ⟨happening_keeps State.hostSide h rfl, fun _ => happening_keeps (fun u => u.slots.hostCheck) h rfl,
        fun _ other => absurd rfl (other line)⟩
    | releaseEdge zone =>
      have h : execReleaseEdge zone s = .next t := h
      have released (u : State) := releaseZone_slotRest u zone
      exact ⟨happening_keeps State.hostSide h ((hostSide_of_slotRest (released _)).trans rfl),
        fun _ => happening_keeps (fun u => u.slots.hostCheck) h ((congrArg SlotRest.hostCheck (released _)).trans rfl),
        fun _ _ other => absurd rfl (other zone)⟩
    | powerOn | resetPin | resetPinAsserted | powerLoss | ssnFallingEdge | transactionTake | statusRead | nop | fetch =>
      cases calm
    | setup | start | restart | ask | free | cancel | surrender | depart | rejoin | status | view | read | take | tally
    | unknown => cases request
    | _ => exact absurd rfl group

/-- Settles O60, family by family: the queue (`exec_pending`), the host's side (`exec_leavesHostSide`), and a part that
does not run (`exec_of_notOn`). -/
theorem lineAndTimerCommandsLeaveTheHostSide : Obligations.LineAndTimerCommandsLeaveTheHostSide := by
  intro c s t h
  refine ⟨exec_pending h, ?_, fun notOn noPower noReset noLoss noPin => exec_of_notOn notOn ?_ h⟩
  · intro request noPower noReset noAssert noLoss noFall noTake noRead noNop noFetch
    have calm : disturbs c = false := by
      cases c with
      | powerOn x b => exact absurd rfl (noPower x b)
      | resetPin x b => exact absurd rfl (noReset x b)
      | resetPinAsserted => exact absurd rfl noAssert
      | powerLoss => exact absurd rfl noLoss
      | ssnFallingEdge => exact absurd rfl noFall
      | transactionTake bytes cut => exact absurd rfl (noTake bytes cut)
      | statusRead first cut => exact absurd rfl (noRead first cut)
      | nop => exact absurd rfl noNop
      | fetch window => exact absurd rfl (noFetch window)
      | _ => rfl
    obtain ⟨hostSide, hostCheck, zoneLines⟩ := exec_leavesHostSide calm request h
    simp only [State.hostSide, HostSide.mk.injEq] at hostSide
    obtain ⟨power, cfg, ownDigest, locked, freeCount, hasRequest, response, collided, cursor⟩ := hostSide
    exact ⟨power, cfg, freeCount, locked, ownDigest, hasRequest, response, collided, cursor, hostCheck, zoneLines⟩
  · cases c with
    | powerOn x b => exact absurd rfl (noPower x b)
    | resetPin x b => exact absurd rfl (noReset x b)
    | powerLoss => exact absurd rfl noLoss
    | releaseInPinChange line high => exact absurd rfl (noPin line high)
    | _ => rfl

/-! ### The configuration (R163, R180) -/

/-- R180: the configuration that an accepted SETUP sets is in its ranges. -/
theorem cfgOf_ok {b : SetupBody} (inRange : setupOk b = true) : (cfgOf b).ok := by
  simp only [setupOk, Bool.and_eq_true, decide_eq_true_eq, List.all_eq_true] at inRange
  obtain ⟨⟨⟨⟨⟨⟨⟨⟨⟨⟨zones, zones'⟩, pool⟩, beat⟩, beat'⟩, absence⟩, absence'⟩, check⟩, trigger⟩, trigger'⟩, lines⟩ := inRange
  refine ⟨zones, zones', pool, beat, beat', absence, absence', check, trigger, trigger', ?_, fun l uses => ?_⟩
  · exact Nat.le_of_lt_succ b.idleTimeout.isLt
  · have passes := lines b.lines[l] (by simp)
    have line : (cfgOf b).lines[l] = lineCfgOf b.lines[l] := by simp [cfgOf]
    rw [line] at uses ⊢
    unfold lineBodyOk at passes
    unfold lineCfgOf at uses ⊢
    split at passes <;> simp_all [cfgOf]

theorem default_ok : Cfg.default.ok := by
  refine ⟨by decide, by decide, by decide, by decide, by decide, by decide, by decide, by decide, by decide, by decide,
    by decide, fun l uses => ?_⟩
  simp [Cfg.default] at uses

/-- What becomes of configuration and lock: they stay, or the configuration stays while START locks it or RESTART unlocks
it, or a SETUP comes while it is unlocked, or a reset unlocks it. -/
structure MovesConfig (s t : State) : Prop where
  ok : s.cfg.ok → t.cfg.ok
  locked : s.mem.locked = true → t.cfg = s.cfg ∨ t.mem.locked = false ∧ t.mem.state = .idle

theorem MovesConfig.of_cfg {s t : State} (same : t.cfg = s.cfg) : MovesConfig s t := ⟨fun ok => same ▸ ok, fun _ => .inl same⟩

theorem Processing.movesConfig {s : State} {a : Answer} (answer : Processing s a) : MovesConfig s a.state := by
  cases answer with
  | configured b unlocked _ inRange =>
    exact ⟨fun _ => cfgOf_ok inRange, fun locked => absurd locked (by simp [unlocked])⟩
  | started _ =>
    refine .of_cfg ?_
    dsimp only [State.startHostCheck]
    split <;> rfl
  | freed t => exact .of_cfg (congrArg SlotRest.cfg (freeSlot_slotRest s t .host))
  | cancelled t => exact .of_cfg (congrArg SlotRest.cfg (cancelSlot_slotRest s t))
  | surrendered =>
    have same : s.surrender.slotRest.cfg = s.slotRest.cfg := by rw [surrender_slotRest]
    dsimp only
    generalize s.surrender = u at same ⊢
    exact .of_cfg same
  | _ => exact .of_cfg rfl

theorem exec_movesConfig {c : Instr} {s t : State} (h : exec c s = .next t) : MovesConfig s t := by
  cases stands : requestOf c with
  | some q =>
    rw [exec_request stands] at h
    obtain rfl | ⟨_, result⟩ := happening_cases h
    · exact .of_cfg rfl
    · dsimp only at result
      split at result
      · exact .of_cfg (by rw [result])
      · have moves := (effectOf_processing stands s).movesConfig
        cases ht : touches c <;> rw [ht] at result <;> exact result ▸ ⟨moves.ok, moves.locked⟩
  | none =>
    have stays (same : t.cfg = s.cfg) : MovesConfig s t := .of_cfg same
    by_cases calm : disturbs c = false
    · exact stays (congrArg HostSide.cfg (exec_leavesHostSide calm stands h).hostSide)
    · cases c with
      | powerOn x b =>
        obtain rfl | ⟨_, rfl⟩ := happening_cases (show execPowerOn x b s = .next t from h)
        · exact .of_cfg rfl
        · exact ⟨fun _ => default_ok, fun _ => .inr ⟨rfl, rfl⟩⟩
      | resetPin x b =>
        obtain rfl | ⟨_, rfl⟩ := happening_cases (show execResetPin x b s = .next t from h)
        · exact .of_cfg rfl
        · exact ⟨fun _ => default_ok, fun _ => .inr ⟨rfl, rfl⟩⟩
      | resetPinAsserted => exact stays (happening_keeps State.cfg (show execResetPinAsserted s = .next t from h) rfl)
      | powerLoss => exact stays (happening_keeps State.cfg (show execPowerLoss s = .next t from h) rfl)
      | ssnFallingEdge => exact stays (happening_keeps State.cfg (show execSsnFallingEdge s = .next t from h) rfl)
      | transactionTake bytes cut =>
        exact stays (happening_keeps State.cfg (show execTransactionTake bytes cut s = .next t from h)
          (by rw [ssnRises_eq]))
      | statusRead first cut =>
        exact stays (happening_keeps State.cfg (show execStatusRead first cut s = .next t from h) (by rw [ssnRises_eq]))
      | nop => exact stays (happening_keeps State.cfg (show execNop s = .next t from h) (by rw [ssnRises_eq]))
      | fetch window =>
        exact stays (happening_keeps State.cfg (show execFetch window s = .next t from h) (by rw [ssnRises_eq]))
      | _ => exact absurd rfl calm

/-- A step runs a command, with the queue's rest or its own, or idles, or lets one bit time pass. -/
theorem step_cases {s t : State} (h : step s = .next t) :
    (∃ c q, exec c { s with pending := q } = .next t) ∨ t = s ∨ t = s.bitTime := by
  unfold step at h
  split at h
  · exact .inl ⟨_, _, h⟩
  · unfold State.idleStep at h
    split at h
    · split at h
      · cases h
        exact .inr (.inr rfl)
      · exact .inl ⟨_, s.pending, h⟩
    · cases h
      exact .inr (.inl rfl)

theorem bitTime_cfg (s : State) : s.bitTime.cfg = s.cfg := by
  unfold State.bitTime
  split <;> rfl

/-- Settles O58: SETUP sets a configuration in its ranges and comes while it is unlocked, and a reset unlocks it. -/
theorem everyStepKeepsTheConfiguration : Obligations.EveryStepKeepsTheConfiguration := by
  intro s t h
  obtain ⟨c, q, ran⟩ | rfl | rfl := step_cases h
  · have moves := exec_movesConfig ran
    exact ⟨moves.ok, moves.locked⟩
  · exact ⟨id, fun _ => .inl rfl⟩
  · exact ⟨fun ok => bitTime_cfg s ▸ ok, fun _ => .inl (bitTime_cfg s)⟩

end Sys2Proof.Machine

/-! # Power, straps and the values after a reset (R71 to R75, R195) -/

namespace Sys2Proof.Machine

/-! ### Resets -/

/-- Settles O4: the values that the chapters give, read off `State.reset`. -/
theorem resetHoldsTheSpecsValues : Obligations.ResetHoldsTheSpecsValues := by
  unfold Obligations.ResetHoldsTheSpecsValues
  have digest : State.reset.mem.ownDigest = digestOf 32 0 100 4 := by simp only [State.reset, Membership.initial]
  exact ⟨rfl, rfl, rfl, rfl, rfl, rfl, rfl, rfl, rfl, rfl, by decide, rfl, by decide, rfl, rfl, rfl, rfl, digest, rfl, rfl,
    by decide, rfl, rfl, rfl, rfl, rfl, by decide, rfl, rfl, by decide, rfl, rfl, rfl, rfl, rfl, rfl, by decide, rfl⟩

/-- Settles O59, invariant by invariant. -/
theorem resetMeetsTheInvariants : Obligations.ResetMeetsTheInvariants := by
  have line : State.reset.lineOk := by
    refine ⟨by decide, by decide, by decide, nofun, by decide, by decide, by decide, by decide, by decide, by decide,
      by decide⟩
  have cfg : State.reset.cfg.ok := default_ok
  have table : State.reset.table.ok State.reset.cfg := Table.empty_ok _
  refine ⟨by decide, by decide, by decide, by decide, by decide, table, nofun, by decide, cfg, line⟩

section Power

variable {s : State} {x : Straps} {ssnHigh : Bool}

theorem exec_powerOn : exec (.powerOn x ssnHigh) s = .next (s.hardReset x ssnHigh) := rfl

theorem exec_resetPin_of_supply (supply : s.power ≠ .off) :
    exec (.resetPin x ssnHigh) s = .next (s.hardReset x ssnHigh) := by
  change execResetPin x ssnHigh s = _
  rw [execResetPin, happening_of_enabled (by simp [supply])]

theorem exec_resetPin_of_off (off : s.power = .off) : exec (.resetPin x ssnHigh) s = .next s := by
  change execResetPin x ssnHigh s = _
  simp [execResetPin, off]

theorem exec_resetPinAsserted_of_on (on : s.power = .on) : exec .resetPinAsserted s = .next (s.cutOff .inReset) := by
  change execResetPinAsserted s = _
  rw [execResetPinAsserted, happening_of_enabled (by simp [on])]

theorem exec_powerLoss_of_supply (supply : s.power ≠ .off) : exec .powerLoss s = .next (s.cutOff .off) := by
  change execPowerLoss s = _
  rw [execPowerLoss, happening_of_enabled (by simp [supply])]

/-- R74: a strap is faulted. -/
theorem strapFault_iff : strapFault x = true ↔ x.stnA = none ∨ x.stnB = none ∨ x.rate1 = none ∨ x.rate0 = none := by
  simp [strapFault, or_assoc]

/-- R74: 125 kbit/s while a rate pin is faulted. -/
theorem strapRate_of_faulted (faulted : x.rate1 = none ∨ x.rate0 = none) : strapRate x = .k125 := by
  unfold strapRate
  split <;> simp_all

/-- R195: a part that a reset has left shows nothing on SDO. -/
theorem hardReset_sdoDrive : (s.hardReset x ssnHigh).sdoDrive = .highZ := by
  cases ssnHigh <;> rfl

end Power

/-- Settles O5: both resets are `State.hardReset`, and the straps are read by `strapNumber`, `strapRate`, `strapFault`. -/
theorem resetReadsTheStraps : Obligations.ResetReadsTheStraps := by
  intro s x ssnHigh
  refine ⟨s.hardReset x ssnHigh, exec_powerOn, exec_resetPin_of_supply, exec_resetPin_of_off, rfl, ?_, ?_, ?_, ?_, ?_, ?_,
    strapRate_of_faulted, strapFault_iff, hardReset_sdoDrive⟩
  · intro a b ha hb
    simp [State.hardReset, strapNumber, ha, hb]
  · intro faulted
    have : strapNumber x = none := by
      unfold strapNumber
      split <;> simp_all
    exact this
  all_goals
    intro h1 h0
    simp [State.hardReset, strapRate, h1, h0]

/-- Settles O6: both are `State.cutOff`. -/
theorem resetHeldCutsLineAndPort : Obligations.ResetHeldCutsLineAndPort := by
  intro s held
  exact ⟨exec_resetPinAsserted_of_on, exec_powerLoss_of_supply, fun p => by cases p <;> rfl⟩

/-- R170: what RESTART leaves of the zone lines. -/
theorem restart_settled {z : ZoneLines} {lines : Vector LineCfg 8} {l : LineNo} (input : (lines[l]).mode = .releaseIn) :
    (z.restart lines).settled[l] = z.pinIn[l] := by
  have mode : (lines[l.val]).mode = .releaseIn := input
  simp [ZoneLines.restart, mode]

/-- Settles O18: RESTART is processed as `State.softReset`. -/
theorem restartIsASoftReset : Obligations.RestartIsASoftReset := by
  intro s r asks
  have ran : exec .restart s = .next (s.softReset.answeredWith (responseBytes 0x12#8 .ok [])) :=
    process_answered (effect := fun u => { state := u.softReset, code := .ok }) asks rfl rfl
  exact ⟨_, ran, rfl, fun l input => restart_settled input⟩

end Sys2Proof.Machine

/-! # Transactions (R173 to R177) -/

namespace Sys2Proof.Machine

/-! ### Bytes of flags (R201 to R204) -/

/-- Six flags as the bits 0 to 5 of a byte. -/
theorem getLsbD_sixFlags (a b c d e f : Bool) (k : Nat) :
    (byteOf (flagAt 0 a + flagAt 1 b + flagAt 2 c + flagAt 3 d + flagAt 4 e + flagAt 5 f)).getLsbD k =
      [a, b, c, d, e, f].getD k false := by
  by_cases within : k < 8
  · have all : ∀ a b c d e f : Bool, ∀ k : Fin 8,
        (byteOf (flagAt 0 a + flagAt 1 b + flagAt 2 c + flagAt 3 d + flagAt 4 e + flagAt 5 f)).getLsbD k =
          [a, b, c, d, e, f].getD k false := by decide
    exact all a b c d e f ⟨k, within⟩
  · rw [BitVec.getLsbD_of_ge _ _ (by omega)]
    simp [List.getD_eq_getElem?_getD, show ¬ k < 6 by omega]

/-- R201: the eight flags of a status byte. -/
theorem getLsbD_eightFlags (a b c d e f g h : Bool) (k : Fin 8) :
    (byteOf (flagAt 7 a + flagAt 6 b + flagAt 5 c + flagAt 4 d + flagAt 3 e + flagAt 2 f + flagAt 1 g +
      flagAt 0 h)).getLsbD k = [h, g, f, e, d, c, b, a].getD k false := by
  revert a b c d e f g h k
  decide

/-! ### The rise and the fall of SSN (R173) -/

section Transaction

variable {s : State}

theorem exec_ssnFallingEdge_of_ready (on : s.power = .on) (ready : s.port.spi = .ready) :
    exec .ssnFallingEdge s = .next { s with port := { s.port with spi := .opened s.statusByte s.port.response } } := by
  change execSsnFallingEdge s = _
  rw [execSsnFallingEdge, happening_of_enabled (by simp [on, ready])]

theorem exec_transactionTake_of_on (on : s.power = .on) (bytes : List Byte) (cut : Bool) :
    exec (.transactionTake bytes cut) s = .next (s.ssnRises bytes cut) := by
  change execTransactionTake bytes cut s = _
  rw [execTransactionTake, happening_of_enabled (by simp [on])]

theorem exec_statusRead_of_on (on : s.power = .on) (first : Byte) (cut : Bool) :
    exec (.statusRead first cut) s = .next (s.ssnRises [first] cut) := by
  change execStatusRead first cut s = _
  rw [execStatusRead, happening_of_enabled (by simp [on])]

theorem exec_nop_of_on (on : s.power = .on) : exec .nop s = .next (s.ssnRises [nopCode, 0] false) := by
  change execNop s = _
  rw [execNop, happening_of_enabled (by simp [on])]

theorem exec_fetch_of_on (on : s.power = .on) (window : List Byte) :
    exec (.fetch window) s = .next (s.ssnRises (fetchCode :: byteOf window.length :: window) false) := by
  change execFetch window s = _
  rw [execFetch, happening_of_enabled (by simp [on])]

/-- R173, R195: SDO is driven in a transaction that the port of a running part takes part in. -/
theorem State.sdoDrive_driven_iff (s : State) :
    s.sdoDrive = .driven ↔ s.power = .on ∧ ∃ status response, s.port.spi = .opened status response := by
  unfold State.sdoDrive
  split
  · next status response on opened => simp [on, opened]
  · next other =>
    refine iff_of_false nofun fun ⟨on, status, response, opened⟩ => ?_
    exact other status response on opened

theorem State.ssnRises_of_waitHigh (waits : s.port.spi = .waitHigh) (bytes : List Byte) (cut : Bool) :
    s.ssnRises bytes cut = { s with port := { s.port with spi := .ready } } := by
  simp [State.ssnRises, waits]

/-- R175: COLLIDED clears when the status byte that shows it has been shifted out. -/
theorem Port.clearShown_cons (p : Port) (status first : Byte) (rest : List Byte) :
    p.clearShown status (first :: rest) = { p with collided := p.collided && !status.getLsbD 5 } := by
  have shown : status.toNat.testBit 5 = status.getLsbD 5 := rfl
  simp only [Port.clearShown, shown, List.isEmpty_cons, Bool.not_false, Bool.true_and]
  cases status.getLsbD 5 <;> simp

/-- R173 to R177: a transaction ends with at least one whole byte. -/
theorem State.ssnRises_of_opened {status : Byte} {response : Option (List Byte)}
    (opened : s.port.spi = .opened status response) (first : Byte) (rest : List Byte) (cut : Bool) :
    s.ssnRises (first :: rest) cut =
      { s with
        port := Port.take
          { s.port with
            spi := .ready
            sdo := shiftOut status (Config.freeByte s.freeCount) response (first :: rest)
            collided := s.port.collided && !status.getLsbD 5 }
          response (first :: rest) cut
        freeCount := if drawsFree (first :: rest) then s.freeCount + 1 else s.freeCount } := by
  simp only [State.ssnRises, opened, Port.clearShown_cons]

end Transaction

/-- Settles O8: the eight flags of R201 (`getLsbD_eightFlags`), and SDO by R173. -/
theorem fallOfSsnLatchesTheStatusByte : Obligations.FallOfSsnLatchesTheStatusByte := by
  refine ⟨fun s on ready => ?_, State.sdoDrive_driven_iff⟩
  have flag (k : Fin 8) := getLsbD_eightFlags s.port.busy s.port.ready s.port.collided s.eventsFlag s.triggerFlag
    s.port.idleFlag s.inStepFlag s.memberFlag k
  refine ⟨s.statusByte, exec_ssnFallingEdge_of_ready on ready, ?_, ?_, flag 7, flag 6, flag 5, (flag 4).trans ?_, flag 3,
    flag 2, flag 1, (flag 0).trans ?_⟩
  · simp [State.sdoDrive, on, ready]
  · exact (State.sdoDrive_driven_iff _).2 ⟨on, _, _, rfl⟩
  · change s.eventsFlag = _
    cases hev : s.port.events <;> simp [State.eventsFlag, hev]
  · exact (Bool.decide_or _ _).symm

/-- Settles O11: what `State.ssnRises` does with one byte, with the two of a NOP, and with none. -/
theorem statusReadAndNopShowOnly : Obligations.StatusReadAndNopShowOnly := by
  intro s first cut on
  refine ⟨fun status resp opened => ⟨?_, ?_, ?_⟩, fun waits => ⟨?_, ?_⟩⟩
  · rw [exec_statusRead_of_on on, State.ssnRises_of_opened opened]
    rfl
  · rw [exec_nop_of_on on, State.ssnRises_of_opened opened]
    rfl
  · rw [exec_transactionTake_of_on on]
    simp [State.ssnRises, opened, Port.clearShown, Port.take, shiftOut, drawsFree]
  · rw [exec_statusRead_of_on on, State.ssnRises_of_waitHigh waits]
  · rw [exec_nop_of_on on, State.ssnRises_of_waitHigh waits]

/-- R176: a transaction is well-formed. -/
theorem transactionWellFormed_iff (code len : Byte) (body : List Byte) (cut : Bool) :
    transactionWellFormed (code :: len :: body) cut = true ↔
      cut = false ∧ body.length = len.toNat ∧ ∀ n, bodyLength code = some n → len.toNat = n := by
  cases hb : bodyLength code <;> cases cut <;> simp [transactionWellFormed, hb]

/-- R176, cases 4 to 6. -/
theorem Port.take_of_request {p : Port} {response : Option (List Byte)} {code len : Byte} {body : List Byte} {cut : Bool}
    (other : ¬ (transactionWellFormed (code :: len :: body) cut = true ∧ (code = 0x00#8 ∨ code = 0x01#8))) :
    p.take response (code :: len :: body) cut =
      p.takeRequest code body (transactionWellFormed (code :: len :: body) cut) := by
  have noNop : ¬ (transactionWellFormed (code :: len :: body) cut && decide (code = nopCode)) = true := by
    simp only [Bool.and_eq_true, decide_eq_true_eq]
    exact fun ⟨wf, is⟩ => other ⟨wf, .inl is⟩
  have noFetch : ¬ (transactionWellFormed (code :: len :: body) cut && decide (code = fetchCode)) = true := by
    simp only [Bool.and_eq_true, decide_eq_true_eq]
    exact fun ⟨wf, is⟩ => other ⟨wf, .inr is⟩
  simp only [Port.take, if_neg noNop, if_neg noFetch]

/-- R173: the bytes shifted out in a transaction of at least two whole bytes. -/
theorem shiftOut_length (status free : Byte) (response : Option (List Byte)) (code len : Byte) (body : List Byte) :
    (shiftOut status free response (code :: len :: body)).length = body.length + 2 := by
  simp only [shiftOut]
  split <;> simp [windowOut]

theorem shiftOut_head (status free : Byte) (response : Option (List Byte)) (code len : Byte) (body : List Byte) :
    (shiftOut status free response (code :: len :: body))[0]? = some status := by
  simp only [shiftOut]
  split <;> rfl

/-- Settles O10: the last three cases of R176. -/
theorem transactionIsDroppedRefusedOrTaken : Obligations.TransactionIsDroppedRefusedOrTaken := by
  intro s status resp code len body cut on opened wellFormed other
  have wf := transactionWellFormed_iff code len body cut
  have taken := Port.take_of_request (response := resp) (fun ⟨good, named⟩ => other ⟨wf.1 good, named⟩)
    (p := { s.port with
      spi := .ready
      sdo := shiftOut status (Config.freeByte s.freeCount) resp (code :: len :: body)
      collided := s.port.collided && !status.getLsbD 5 })
  have busy : Port.busy { s.port with
      spi := .ready
      sdo := shiftOut status (Config.freeByte s.freeCount) resp (code :: len :: body)
      collided := s.port.collided && !status.getLsbD 5 } = s.port.request.isSome := rfl
  have plain (notFetch : code ≠ 0x01#8) : shiftOut status (Config.freeByte s.freeCount) resp (code :: len :: body) =
      status :: List.replicate (body.length + 1) 0x00#8 := by
    simp [shiftOut, fetchCode, notFetch, List.replicate_succ]
  have length := shiftOut_length status (Config.freeByte s.freeCount) resp code len body
  have head := shiftOut_head status (Config.freeByte s.freeCount) resp code len body
  refine ⟨_, exec_transactionTake_of_on on _ _, ?_⟩
  rw [State.ssnRises_of_opened opened, taken]
  unfold Port.takeRequest
  rw [busy]
  cases hr : s.port.request with
  | some q =>
    dsimp only [Option.isSome_some]
    rw [if_pos rfl]
    refine ⟨rfl, length, head, fun notFetch => ⟨?_, ?_⟩,
      fun _ => ⟨rfl, rfl, rfl⟩, nofun⟩
    · simp [drawsFree, fetchCode, notFetch]
    · exact congrArg (List.drop 1) (plain notFetch)
  | none =>
    dsimp only [Option.isSome_none]
    rw [if_neg (by simp)]
    split
    · next good =>
      refine ⟨rfl, length, head, fun notFetch => ⟨?_, ?_⟩, nofun,
        fun _ => ⟨rfl, fun _ => ⟨rfl, rfl⟩, fun bad => absurd (wf.1 good) bad⟩⟩
      · simp [drawsFree, fetchCode, notFetch]
      · exact congrArg (List.drop 1) (plain notFetch)
    · next bad =>
      refine ⟨rfl, length, head, fun notFetch => ⟨?_, ?_⟩, nofun,
        fun _ => ⟨rfl, fun good => absurd (wf.2 good) bad, fun _ => ⟨rfl, rfl⟩⟩⟩
      · simp [drawsFree, fetchCode, notFetch]
      · exact congrArg (List.drop 1) (plain notFetch)

/-- Settles O12: the taking of a well-formed FETCH. -/
theorem fetchShowsAndReleasesTheResponse : Obligations.FetchShowsAndReleasesTheResponse := by
  intro s status resp window on opened short
  have declared : (byteOf window.length).toNat = window.length := by
    simp only [byteOf, BitVec.toNat_ofNat]
    omega
  have wf : transactionWellFormed (fetchCode :: byteOf window.length :: window) false = true :=
    (transactionWellFormed_iff _ _ _ _).2 ⟨rfl, declared.symm, nofun⟩
  have shown : shiftOut status (Config.freeByte s.freeCount) resp (fetchCode :: byteOf window.length :: window) =
      status :: Config.freeByte s.freeCount :: windowOut resp window.length := rfl
  have window_ (i : Nat) (within : i < window.length) :
      (windowOut resp window.length)[i]? = some (((resp.getD [])[i]?).getD 0x00#8) := by
    simp [windowOut, within]
  have taken (p : Port) : p.take resp (fetchCode :: byteOf window.length :: window) false = p.takeFetch resp window := by
    simp only [Port.take, wf, Bool.true_and]
    rw [if_neg (by decide), if_pos (by decide)]
  refine ⟨_, exec_fetch_of_on on window, ?_⟩
  rw [State.ssnRises_of_opened opened, taken, shown]
  unfold Port.takeFetch
  cases hr : resp with
  | none =>
    subst hr
    refine ⟨rfl, ?_, rfl, window_, nofun, nofun, fun _ => rfl⟩
    simp [windowOut]
  | some r =>
    subst hr
    dsimp only
    split
    · next covers =>
      refine ⟨rfl, ?_, rfl, window_, fun _ _ _ => rfl, fun q hq short => ?_, nofun⟩
      · simp [windowOut]
      · cases hq
        omega
    · next falls =>
      refine ⟨rfl, ?_, rfl, window_, fun q hq long => ?_, fun _ _ _ => rfl, nofun⟩
      · simp [windowOut]
      · cases hq
        exact absurd long falls

end Sys2Proof.Machine

/-! # The processing of requests (R142 to R145, R178 to R193) -/

namespace Sys2Proof.Machine

/-! ### Bytes of a request (R201) -/

/-- R196: a 16-bit field reads back from its two bytes. -/
theorem halfOf_halfBytes (h : Half) :
    halfOf (BitVec.ofNat 8 (h.toNat / 256)) (BitVec.ofNat 8 (h.toNat % 256)) = h := by
  apply BitVec.eq_of_toNat_eq
  have := h.isLt
  simp only [halfOf, BitVec.toNat_ofNat]
  omega

/-- R201: a SETUP body reads back from its bytes. -/
theorem setupBodyOf_setupBytes (b : SetupBody) : setupBodyOf (setupBytes b) = b := by
  obtain ⟨zones, pool, beat, absence, check, trigger, idle, ⟨⟨lines⟩, eight⟩⟩ := b
  obtain ⟨l0, l1, l2, l3, l4, l5, l6, l7, rfl⟩ : ∃ l0 l1 l2 l3 l4 l5 l6 l7, lines = [l0, l1, l2, l3, l4, l5, l6, l7] := by
    match lines, eight with
    | [l0, l1, l2, l3, l4, l5, l6, l7], _ => exact ⟨l0, l1, l2, l3, l4, l5, l6, l7, rfl⟩
  simp only [setupBodyOf, SetupBody.mk.injEq]
  refine ⟨rfl, halfOf_halfBytes _, halfOf_halfBytes _, rfl, halfOf_halfBytes _, rfl, rfl, ?_⟩
  ext n hn
  all_goals interval_cases n <;> rfl

theorem setupBytes_length (b : SetupBody) : (setupBytes b).length = 34 := by
  simp [setupBytes, List.length_flatMap]

/-- R201: a code that names no request. -/
theorem unknown_code {code : Byte} (unnamed : (Instr.unknown code).wellFormed = true) :
    commandOf { code := code, body := [] } = .unknown code ∧ bodyLength code = none := by
  have other : code ∉ requestCodes := by simpa [Instr.wellFormed] using unnamed
  simp only [requestCodes, List.mem_cons, List.not_mem_nil, ← BitVec.toNat_inj, BitVec.toNat_ofNat, not_or] at other
  refine ⟨?_, ?_⟩
  · unfold commandOf
    dsimp only
    split <;> first | omega | rfl
  · unfold bodyLength
    split <;> first | omega | rfl

/-- Settles O13, by the request that the command stands for. -/
theorem requestBytesReadBack : Obligations.RequestBytesReadBack := by
  intro c r stands wellFormed
  cases c with
  | setup b =>
    cases stands
    refine ⟨congrArg Instr.setup (setupBodyOf_setupBytes b), (transactionWellFormed_iff _ _ _ _).2 ⟨rfl, ?_, ?_⟩⟩
    · rw [setupBytes_length]
      rfl
    · rw [setupBytes_length]
      rintro n ⟨⟩
      rfl
  | ask flags lo hi units hold =>
    cases stands
    have unitsBack : halfAt ([flags, lo, hi] ++ halfBytes units ++ halfBytes hold) 3 = units := halfOf_halfBytes units
    have holdBack : halfAt ([flags, lo, hi] ++ halfBytes units ++ halfBytes hold) 5 = hold := halfOf_halfBytes hold
    refine ⟨?_, rfl⟩
    change Instr.ask flags lo hi _ _ = _
    rw [unitsBack, holdBack]
  | unknown code =>
    cases stands
    obtain ⟨command, noLength⟩ := unknown_code wellFormed
    refine ⟨command, (transactionWellFormed_iff _ _ _ _).2 ⟨rfl, rfl, fun n named => ?_⟩⟩
    rw [noLength] at named
    cases named
  | start | restart | free | cancel | surrender | depart | rejoin | status | view | read | take | tally =>
    cases stands
    exact ⟨rfl, rfl⟩
  | _ => cases stands

/-! ### Refusals and the host-check timer (R156, R179) -/

/-- R143: FREE leaves the slot as it is, or is answered OK. -/
theorem freeSlot_refused_or_ok (s : State) (t : Tag) (c : ReleaseCause) :
    (s.freeSlot t c).1 = s ∨ (s.freeSlot t c).2 = .ok := by
  unfold State.freeSlot
  dsimp only
  repeat' split
  all_goals first | exact .inl rfl | exact .inr rfl

/-- R144: CANCEL leaves the slot as it is, or is answered OK. -/
theorem cancelSlot_refused_or_ok (s : State) (t : Tag) : (s.cancelSlot t).1 = s ∨ (s.cancelSlot t).2 = .ok := by
  unfold State.cancelSlot
  dsimp only
  repeat' split
  all_goals first | exact .inl rfl | exact .inr rfl

/-- R179: a processing leaves the state as it is, or is answered OK. -/
theorem Processing.refused_or_ok {s : State} {a : Answer} (answer : Processing s a) : a.state = s ∨ a.code = .ok := by
  cases answer with
  | denied k => exact .inl rfl
  | freed t => exact freeSlot_refused_or_ok s t .host
  | cancelled t => exact cancelSlot_refused_or_ok s t
  | _ => exact .inr rfl

/-- A command that the port can ask for stands for a request. -/
theorem requestOf_commandOf (r : Request) : ∃ q, requestOf (commandOf r) = some q := by
  unfold commandOf
  split <;> exact ⟨_, rfl⟩

/-- R178: what a command leaves that the port asks for. -/
theorem exec_asked {c : Instr} {s t : State} {r : Request} (asks : s.asksFor c r) (h : exec c s = .next t) :
    Processing s (effectOf c s) ∧
      t = (if touches c then (effectOf c s).state.touchHostCheck else (effectOf c s).state).respond r.code
        (effectOf c s).code (effectOf c s).data := by
  obtain ⟨q, stands⟩ := requestOf_commandOf r
  rw [asks.2.2] at stands
  rw [exec_request stands, process_asked asks] at h
  cases h
  exact ⟨effectOf_processing stands s, rfl⟩

/-- Settles O14: a request answered with another code than OK has had no effect (`Processing.refused_or_ok`). -/
theorem refusedRequestsChangeNothing : Obligations.RefusedRequestsChangeNothing := by
  intro c s t r k asks h response other
  obtain ⟨answer, rfl⟩ := exec_asked asks h
  obtain same | ok := answer.refused_or_ok
  · rw [same]
    cases touches c <;> rfl
  · refine absurd ?_ other
    rw [ok] at response
    have code := congrArg (fun bytes => (bytes.getD [])[2]?) response
    exact (Option.some.inj code).symm

/-- R156: no request but START and RESTART is about the host-check timer. -/
theorem effectOf_hostCheck {c : Instr} (noStart : c ≠ .start) (noRestart : c ≠ .restart) (s : State) :
    (effectOf c s).state.slots.hostCheck = s.slots.hostCheck := by
  have onSlot {tag : Byte} {act : Tag → State × RespCode} (acts : ∀ t, (act t).1.slotRest = s.slotRest) :
      (s.onSlot tag act).state.slots.hostCheck = s.slots.hostCheck := by
    unfold State.onSlot
    split
    · split
      · exact congrArg SlotRest.hostCheck (acts _)
      · rfl
    · rfl
  cases c with
  | start => exact absurd rfl noStart
  | restart => exact absurd rfl noRestart
  | setup b =>
    change (s.setup b).state.slots.hostCheck = _
    unfold State.setup
    repeat' split
    all_goals rfl
  | ask flags lo hi units hold =>
    change (s.ask _ _ _).state.slots.hostCheck = _
    unfold State.ask
    repeat' split
    all_goals rfl
  | free tag => exact onSlot fun t => freeSlot_slotRest s t .host
  | cancel tag => exact onSlot fun t => cancelSlot_slotRest s t
  | surrender =>
    rw [show effectOf .surrender s = if s.memberFlag then { state := s.surrender, code := .ok } else s.deny .state from rfl]
    have same : s.surrender.slotRest.hostCheck = s.slots.hostCheck := by rw [surrender_slotRest]; rfl
    split
    · dsimp only
      generalize s.surrender = u at same ⊢
      exact same
    · rfl
  | depart =>
    change (if s.memberInStep then { state := s.enterLeaving, code := .ok } else s.deny .state : Answer).state.slots.hostCheck = _
    split <;> rfl
  | rejoin =>
    change (if s.mem.state.isOut then { state := s.enterListening .rejoin none, code := .ok } else s.deny .state : Answer).state.slots.hostCheck = _
    split <;> rfl
  | view code index auto =>
    change (match cursorOf code index auto with
      | some c => ({ state := { s with port := { s.port with cursor := c } }, code := .ok } : Answer)
      | none => s.deny .badArg).state.slots.hostCheck = _
    split <;> rfl
  | read count =>
    change (s.read _).state.slots.hostCheck = _
    unfold State.read
    split <;> rfl
  | take count =>
    change (s.take _).state.slots.hostCheck = _
    unfold State.take
    split
    · rfl
    · rfl
  | _ => rfl

@[simp] theorem respond_hostCheck (s : State) (code : Byte) (k : RespCode) (data : List Byte) :
    (s.respond code k data).slots.hostCheck = s.slots.hostCheck := rfl

@[simp] theorem respond_cfg (s : State) (code : Byte) (k : RespCode) (data : List Byte) :
    (s.respond code k data).cfg = s.cfg := rfl

/-- R156: a touched timer that is stopped stays so. -/
theorem touched_of_not_stopped {w : Watch} (runs : w ≠ .stopped) (period : Nat) : w.touched period = .running period := by
  cases w <;> first | rfl | exact absurd rfl runs

/-- R82: START is accepted in IDLE without a strap fault. -/
theorem State.start_of_idle {s : State} (idle : s.mem.state = .idle) (read : s.mem.strapFault = false) :
    s.start =
      { state := (State.enterListening { s with mem := { s.mem with locked := true } } .start none).startHostCheck
        code := .ok } := by
  simp [State.start, idle, read]

theorem State.start_refused {s : State} (refused : ¬ (s.mem.state = .idle ∧ s.mem.strapFault = false)) :
    s.start = s.deny .state := by
  simp only [State.start, if_neg refused]

/-- R82, R156: what an accepted START leaves of the host-check timer. -/
theorem startHostCheck_hostCheck (s : State) :
    s.startHostCheck.slots.hostCheck =
      if s.cfg.hostCheckPeriod = 0 then s.slots.hostCheck else .running s.cfg.hostCheckPeriod := by
  unfold State.startHostCheck
  split <;> rfl

theorem startHostCheck_cfg (s : State) : s.startHostCheck.cfg = s.cfg := by
  unfold State.startHostCheck
  split <;> rfl

/-- R156: a processing that leaves the timer to the end of the request restarts it, unless it is stopped. -/
theorem touchHostCheck_of_same {u : State} {w : Watch} (same : u.slots.hostCheck = w) :
    (w = .stopped → u.touchHostCheck.slots.hostCheck = .stopped) ∧
      (w ≠ .stopped → u.touchHostCheck.slots.hostCheck = .running u.cfg.hostCheckPeriod) := by
  subst same
  refine ⟨fun stopped => ?_, fun runs => touched_of_not_stopped runs _⟩
  change u.slots.hostCheck.touched _ = _
  rw [stopped]
  rfl

/-- R82: an accepted START has answered OK. -/
theorem start_answers {s : State} {r : Request} (asks : s.asksFor .start r) (idle : s.mem.state = .idle)
    (read : s.mem.strapFault = false) :
    (s.start.state.touchHostCheck.respond r.code s.start.code s.start.data).port.response =
      some [0x03#8, 0x11#8, 0x00#8] := by
  have code : r.code = 0x11#8 := code_of_requestOf_commandOf (q := ⟨0x11#8, []⟩) (by rw [asks.2.2]; rfl)
  rw [State.start_of_idle idle read, code]
  rfl

/-- Settles O15: START and RESTART set the timer themselves; every other request leaves it to `touched`. -/
theorem requestsRestartTheHostCheck : Obligations.RequestsRestartTheHostCheck := by
  intro c s t r asks h
  obtain ⟨answer, rfl⟩ := exec_asked asks h
  refine ⟨?_, ?_, ?_, ?_⟩
  · rintro rfl
    rfl
  · rintro k rfl
    rfl
  · rintro rfl ok period
    by_cases accepted : s.mem.state = .idle ∧ s.mem.strapFault = false
    · obtain ⟨idle, read⟩ := accepted
      have started : s.start.state.slots.hostCheck = .running s.cfg.hostCheckPeriod := by
        rw [State.start_of_idle idle read]
        exact (startHostCheck_hostCheck _).trans (if_neg period)
      have same : s.start.state.cfg = s.cfg := by
        rw [State.start_of_idle idle read]
        exact startHostCheck_cfg _
      exact same ▸ (touchHostCheck_of_same started).2 nofun
    · have refused : (s.start.state.touchHostCheck.respond r.code s.start.code s.start.data).port.response =
          some [0x03#8, 0x11#8, 0x00#8] := ok
      rw [State.start_refused accepted] at refused
      have code := congrArg (fun bytes => (bytes.getD [])[2]?) refused
      cases code
  · intro noRestart noUnknown acceptance
    have touched : touches c = true := by
      cases c with
      | unknown k => exact absurd rfl (noUnknown k)
      | _ => rfl
    rw [touched]
    refine touchHostCheck_of_same (u := (effectOf c s).state) ?_
    by_cases start : c = .start
    · subst start
      change s.start.state.slots.hostCheck = _
      by_cases accepted : s.mem.state = .idle ∧ s.mem.strapFault = false
      · obtain ⟨idle, read⟩ := accepted
        have period := (acceptance rfl).resolve_left fun other => other (start_answers asks idle read)
        rw [State.start_of_idle idle read]
        exact (startHostCheck_hostCheck _).trans (if_pos period)
      · rw [State.start_refused accepted]
        rfl
    · exact effectOf_hostCheck start noRestart s

end Sys2Proof.Machine

/-! # SETUP, START, DEPART and REJOIN (R82, R94, R97, R163, R180) -/

namespace Sys2Proof.Machine

/-- R178: a request that restarts the host-check timer is answered with its effect's code and data. -/
theorem exec_answered {c : Instr} {s t : State} {r q : Request} {k : RespCode} {data : List Byte} (asks : s.asksFor c r)
    (stands : requestOf c = some q) (touched : touches c = true)
    (answer : effectOf c s = { state := t, code := k, data := data }) :
    exec c s = .next (t.answeredWith (responseBytes q.code k data)) := by
  rw [exec_request stands, touched]
  exact process_answered asks stands answer

/-! ### SETUP (R163, R170, R180, R193) -/

/-- R163, R201: a zone line passes. -/
theorem lineBodyOk_iff (zoneCount : Nat) (l : LineBody) :
    lineBodyOk zoneCount l = true ↔
      l.mode.toNat ≤ 3 ∧ l.polarity.toNat ≤ 1 ∧ (l.mode.toNat = 1 ∨ l.mode.toNat = 3 → l.zone.toNat < zoneCount) := by
  unfold lineBodyOk
  split
  case h_5 not0 not2 not1 not3 =>
    have above : ¬ l.mode.toNat ≤ 3 := by
      rw [imp_false] at not0 not1 not2 not3
      omega
    exact iff_of_false Bool.false_ne_true fun ⟨inRange, _⟩ => above inRange
  all_goals
    simp only [Bool.and_eq_true, decide_eq_true_eq]
    omega

/-- R180: a SETUP passes when every field is in its range. -/
theorem setupOk_iff (b : SetupBody) :
    setupOk b = true ↔
      (1 ≤ b.zoneCount.toNat ∧ b.zoneCount.toNat ≤ 32) ∧ b.poolCapacity.toNat ≤ 1023 ∧
      (10 ≤ b.beatInterval.toNat ∧ b.beatInterval.toNat ≤ 1000) ∧
      (2 ≤ b.absenceLimit.toNat ∧ b.absenceLimit.toNat ≤ 15) ∧
      (b.hostCheckPeriod.toNat = 0 ∨ 10 ≤ b.hostCheckPeriod.toNat ∧ b.hostCheckPeriod.toNat ≤ 10000) ∧
      (1 ≤ b.triggerLevel.toNat ∧ b.triggerLevel.toNat ≤ 32) ∧
      ∀ l : LineNo, lineBodyOk b.zoneCount.toNat b.lines[l] = true := by
  have lines : b.lines.toList.all (lineBodyOk b.zoneCount.toNat) = true ↔
      ∀ l : LineNo, lineBodyOk b.zoneCount.toNat b.lines[l] = true := by
    rw [List.all_eq_true]
    refine ⟨fun every l => every _ (by simp), fun every x hx => ?_⟩
    obtain ⟨i, hi, rfl⟩ := Vector.mem_iff_getElem.1 (Vector.mem_toList_iff.1 hx)
    exact every ⟨i, hi⟩
  simp only [setupOk, Bool.and_eq_true, decide_eq_true_eq, lines]
  tauto

theorem cfgOf_line (b : SetupBody) (l : LineNo) : (cfgOf b).lines[l] = lineCfgOf b.lines[l] := by
  simp [cfgOf]

/-- R163: the configuration of a zone line, by its mode. -/
theorem lineCfgOf_fields (l : LineBody) :
    (l.mode = 0x00#8 → (lineCfgOf l).mode = .off) ∧ (l.mode = 0x01#8 → (lineCfgOf l).mode = .grantOut) ∧
    (l.mode = 0x02#8 → (lineCfgOf l).mode = .memberOut) ∧ (l.mode = 0x03#8 → (lineCfgOf l).mode = .releaseIn) ∧
    (l.mode = 0x01#8 ∨ l.mode = 0x03#8 → (lineCfgOf l).zone = l.zone.toNat) := by
  obtain ⟨mode, zone, polarity⟩ := l
  refine ⟨?_, ?_, ?_, ?_, ?_⟩
  · rintro rfl; rfl
  · rintro rfl; rfl
  · rintro rfl; rfl
  · rintro rfl; rfl
  · rintro (rfl | rfl) <;> rfl

/-- R163: a line in use has the polarity that its byte names. -/
theorem lineCfgOf_polarity {l : LineBody} (inRange : l.mode.toNat ≤ 3) (inUse : l.mode ≠ 0x00#8) :
    (lineCfgOf l).polarity = .low ↔ l.polarity = 0x01#8 := by
  have named : l.mode.toNat = 1 ∨ l.mode.toNat = 2 ∨ l.mode.toNat = 3 := by
    have : l.mode.toNat ≠ 0 := fun zero => inUse (BitVec.eq_of_toNat_eq zero)
    omega
  unfold lineCfgOf
  obtain mode | mode | mode := named <;> (rw [mode]; by_cases low : l.polarity = 1 <;> simp [low])

/-- R170: what becomes of each zone line at an accepted SETUP. -/
theorem ZoneLines.reconfigure_line (z : ZoneLines) (old new : Vector LineCfg 8) (l : LineNo) :
    (new[l] = old[l] →
      (z.reconfigure old new).settled[l] = z.settled[l] ∧ (z.reconfigure old new).qual[l] = z.qual[l]) ∧
    (new[l] ≠ old[l] → new[l].mode = .releaseIn → (z.reconfigure old new).settled[l] = z.pinIn[l]) ∧
    (new[l] ≠ old[l] → (z.reconfigure old new).qual[l] = .stopped) := by
  simp only [ZoneLines.reconfigure, Fin.getElem_fin, Vector.getElem_ofFn, LineCfg.retakes]
  refine ⟨fun same => ?_, fun other input => ?_, fun other => if_neg other⟩
  · simp [same]
  · simp [other, input]

/-- R193: the idle timer at an accepted SETUP. -/
theorem Port.newIdleTimeout_timer (p : Port) (timeout : Byte) :
    (timeout = 0x00#8 → (p.newIdleTimeout timeout.toNat).idleTimer = .stopped) ∧
    (timeout ≠ 0x00#8 → p.events ≠ [] → p.idleFlag = false →
      (p.newIdleTimeout timeout.toNat).idleTimer = .running timeout.toNat) ∧
    (timeout ≠ 0x00#8 → p.events = [] ∨ p.idleFlag = true →
      (p.newIdleTimeout timeout.toNat).idleTimer = p.idleTimer) := by
  have zero : timeout.toNat = 0 ↔ timeout = 0x00#8 := ⟨fun h => BitVec.eq_of_toNat_eq h, fun h => by rw [h]; rfl⟩
  unfold Port.newIdleTimeout
  refine ⟨fun off => by rw [if_pos (zero.2 off)], fun on some clear => ?_, fun on rest => ?_⟩
  · rw [if_neg (mt zero.1 on), if_pos (by simp [some, clear])]
  · rw [if_neg (mt zero.1 on), if_neg (by rcases rest with rest | rest <;> simp [rest])]

theorem State.setup_of_closed {s : State} (b : SetupBody) (closed : s.mem.locked = true ∨ s.mem.state ≠ .idle) :
    s.setup b = s.deny .state := by
  simp [State.setup, closed]

theorem State.setup_of_bad {s : State} {b : SetupBody} (unlocked : s.mem.locked = false) (idle : s.mem.state = .idle)
    (bad : setupOk b = false) : s.setup b = s.deny .badArg := by
  simp [State.setup, unlocked, idle, bad]

theorem State.setup_of_good {s : State} {b : SetupBody} (unlocked : s.mem.locked = false) (idle : s.mem.state = .idle)
    (good : setupOk b = true) : s.setup b = { state := s.configure b, code := .ok } := by
  simp [State.setup, unlocked, idle, good]

theorem State.configure_eq (s : State) (b : SetupBody) :
    s.configure b =
      { s with
        cfg := cfgOf b
        mem := { s.mem with
          ownDigest := digestOf b.zoneCount.toNat b.poolCapacity.toNat b.beatInterval.toNat b.absenceLimit.toNat }
        zl := { s.zl with
          settled := (s.zl.reconfigure s.cfg.lines (cfgOf b).lines).settled
          qual := (s.zl.reconfigure s.cfg.lines (cfgOf b).lines).qual }
        port := { s.port with idleTimer := (s.port.newIdleTimeout b.idleTimeout.toNat).idleTimer } } := by
  simp only [State.configure]
  rw [Port.newIdleTimeout_eq]
  rfl

/-- Settles O16. -/
theorem setupReplacesTheConfiguration : Obligations.SetupReplacesTheConfiguration := by
  refine ⟨fun b => ?_, fun s r b asks => ⟨fun closed => ?_, fun unlocked idle bad => ?_, fun unlocked idle good => ?_⟩⟩
  · simp only [setupOk_iff, lineBodyOk_iff]
  · exact exec_answered asks rfl rfl (State.setup_of_closed b closed)
  · exact exec_answered asks rfl rfl (State.setup_of_bad unlocked idle bad)
  · refine ⟨_, exec_answered asks rfl rfl (State.setup_of_good unlocked idle good), ?_⟩
    obtain ⟨_, _, _, _, _, _, lines⟩ := (setupOk_iff b).1 good
    rw [State.configure_eq]
    refine ⟨rfl, rfl, rfl, rfl, rfl, rfl, rfl, rfl, fun l => ?_, Port.newIdleTimeout_timer s.port b.idleTimeout⟩
    have ⟨off, grantOut, memberOut, releaseIn, zone⟩ := lineCfgOf_fields b.lines[l]
    have polarity := lineCfgOf_polarity ((lineBodyOk_iff _ _).1 (lines l)).1
    have zoneLine := s.zl.reconfigure_line s.cfg.lines (cfgOf b).lines l
    rw [← cfgOf_line b l] at off grantOut memberOut releaseIn zone polarity
    exact ⟨off, grantOut, memberOut, releaseIn, zone, polarity, zoneLine⟩

/-! ### START (R82) -/

/-- R77, R82: what entry to LISTENING and the start of the host-check timer leave. -/
theorem State.startHostCheck_eq (s : State) :
    s.startHostCheck = { s with slots := { s.slots with hostCheck := s.startHostCheck.slots.hostCheck } } := by
  unfold State.startHostCheck
  split <;> rfl

/-- Settles O17. -/
theorem startLocksAndListens : Obligations.StartLocksAndListens := by
  refine fun s r asks => ⟨fun refused => ?_, fun idle read => ?_⟩
  · refine exec_answered asks rfl rfl (State.start_refused ?_)
    rintro ⟨idle, read⟩
    exact refused.elim (· idle) fun fault => Bool.false_ne_true (read.symm.trans fault)
  · refine ⟨_, exec_answered asks rfl rfl (State.start_of_idle idle read), ?_⟩
    rw [State.startHostCheck_eq]
    refine ⟨rfl, rfl, rfl, rfl, rfl, rfl, rfl, rfl, rfl, rfl, rfl, rfl, rfl, rfl, rfl, rfl, rfl, rfl, rfl, rfl, ?_⟩
    exact Port.append_counters ..

/-! ### DEPART and REJOIN (R94, R97) -/

theorem StationState.isOut_iff (st : StationState) :
    st.isOut = true ↔ st = .detached ∨ st = .refused ∨ st = .isolated := by
  cases st <;> simp [StationState.isOut]

/-- R108: an evict flag that clears restarts its timer; a timer that runs or is stopped stays. -/
theorem Watch.unexpire_eq (full : Nat) (w : Watch) : w.unexpire full = if w = .expired then .running full else w := by
  cases w <;> simp [Watch.unexpire]

/-- R165, R167: no output is asserted but by a MEMBER in step. -/
theorem State.lineAsserted_of_not_memberInStep {s : State} (outside : s.memberInStep = false) (l : LineNo) :
    s.lineAsserted l ≠ some true := by
  unfold State.lineAsserted
  split <;> simp [outside]

/-- Settles O23. -/
theorem departQueuesALeaveAndRejoinListens : Obligations.DepartQueuesALeaveAndRejoinListens := by
  refine ⟨fun s r asks => ⟨fun inside => ?_, fun isOut => ?_⟩, fun s r asks => ⟨fun outside => ?_, fun member inStep => ?_⟩⟩
  · exact exec_answered asks rfl rfl (if_neg (mt (StationState.isOut_iff _).1 inside))
  · exact exec_answered asks rfl rfl (if_pos ((StationState.isOut_iff _).2 isOut))
  · exact exec_answered asks rfl rfl (if_neg (mt s.memberInStep_iff.1 outside))
  · refine ⟨_, exec_answered asks rfl rfl (if_pos (s.memberInStep_iff.2 ⟨member, inStep⟩)), rfl, fun n => ?_, fun l => ?_⟩
    · exact ⟨fun expired => (s.pres.quiesce_absence _ n).trans ((Watch.unexpire_eq _ _).trans (if_pos expired)),
        fun other => (s.pres.quiesce_absence _ n).trans ((Watch.unexpire_eq _ _).trans (if_neg other))⟩
    · exact State.lineAsserted_of_not_memberInStep rfl l

end Sys2Proof.Machine

/-! # What the requests for data answer (R183 to R185, R191) -/

namespace Sys2Proof.Machine

/-! ### STATUS (R183, R202) -/

/-- Settles O24. -/
theorem statusAnswersTheRecord : Obligations.StatusAnswersTheRecord := by
  refine fun s r asks => ⟨exec_answered (q := ⟨0x40#8, []⟩) asks rfl rfl rfl, rfl, rfl, ⟨_, rfl, ?_⟩, ?_⟩
  · have flags := getLsbD_sixFlags s.mem.strapFault s.line.stuck s.roster.digest.isSome false false false
    refine ⟨flags 0, flags 1, flags 2, fun i above => (flags i).trans ?_⟩
    match i, above with
    | 3, _ | 4, _ | 5, _ | i + 6, _ => rfl
  · refine ⟨?_, rfl, rfl, rfl, rfl, rfl, rfl, rfl, fun t => ?_, rfl, rfl, rfl⟩
    · change some s.mem.rate.code = _
      cases s.mem.rate <;> rfl
    · fin_cases t <;> rfl

/-! ### VIEW and READ (R184, R185, R204) -/

theorem cursorOf_eq_none_iff (code index auto : Byte) :
    cursorOf code index auto = none ↔ 2 < code.toNat ∨ 1 < auto.toNat := by
  unfold cursorOf viewOf
  split
  · next unnamed =>
    refine iff_of_true rfl (.inl ?_)
    split at unnamed
    · cases unnamed
    · cases unnamed
    · cases unnamed
    · next not0 not1 not2 =>
      rw [imp_false] at not0 not1 not2
      omega
  · next v named =>
    have inRange : code.toNat ≤ 2 := by
      split at named
      · omega
      · omega
      · omega
      · cases named
    split
    · next plain => exact iff_of_false nofun (by omega)
    · next plain => exact iff_of_true rfl (by omega)

theorem cursorOf_of_named {code index auto : Byte} {v : View} (plain : auto.toNat ≤ 1)
    (named : code = 0x00#8 ∧ v = .table ∨ code = 0x01#8 ∧ v = .roster ∨ code = 0x02#8 ∧ v = .slots) :
    cursorOf code index auto = some { view := v, index := index.toNat, auto := decide (auto = 0x01#8) } := by
  obtain ⟨rfl, rfl⟩ | ⟨rfl, rfl⟩ | ⟨rfl, rfl⟩ := named <;> exact if_pos plain

theorem effectOf_view_of_none {code index auto : Byte} (s : State) (unnamed : cursorOf code index auto = none) :
    effectOf (.view code index auto) s = s.deny .badArg := by
  unfold effectOf
  dsimp only
  rw [unnamed]

theorem effectOf_view_of_some {code index auto : Byte} {c : Cursor} (s : State) (named : cursorOf code index auto = some c) :
    effectOf (.view code index auto) s =
      { state := { s with port := { s.port with cursor := c } }, code := .ok } := by
  unfold effectOf
  dsimp only
  rw [named]

/-- R184: how many indices of a view have an entry. -/
def State.viewLength (s : State) : View → Nat
  | .table => s.table.records.length
  | .roster => 16
  | .slots => 8

theorem State.viewEntry_eq_none_iff (s : State) (v : View) (i : Nat) : s.viewEntry v i = none ↔ s.viewLength v ≤ i := by
  cases v with
  | table => simp [State.viewEntry, State.viewLength]
  | roster | slots =>
    unfold State.viewEntry State.viewLength
    dsimp only
    split
    · exact iff_of_false nofun (by omega)
    · exact iff_of_true rfl (by omega)

/-- R185: the entries read, one for each index that has one, and the end marker in place of the first that has none. -/
theorem State.readEntries_eq (s : State) (v : View) (n i : Nat) :
    s.readEntries v n i =
      (((List.range (min n (s.viewLength v - i))).flatMap fun j => (s.viewEntry v (i + j)).getD []) ++
        (if min n (s.viewLength v - i) < n then [0xFF#8] else []), min n (s.viewLength v - i)) := by
  induction n generalizing i with
  | zero => simp [State.readEntries]
  | succ n ih =>
    unfold State.readEntries
    cases entry : s.viewEntry v i with
    | none =>
      have past : s.viewLength v - i = 0 := by
        have := (s.viewEntry_eq_none_iff v i).1 entry
        omega
      simp [past]
    | some e =>
      have within : ¬ s.viewLength v ≤ i := fun past => by simp [(s.viewEntry_eq_none_iff v i).2 past] at entry
      have one : min (n + 1) (s.viewLength v - i) = min n (s.viewLength v - (i + 1)) + 1 := by omega
      simp only [ih, one, List.range_succ_eq_map, List.flatMap_cons, List.flatMap_map, Nat.add_zero, entry,
        Option.getD_some, List.append_assoc, Nat.add_lt_add_iff_right, Nat.add_right_comm i, Nat.add_assoc i]

theorem State.read_of_bad {s : State} {count : Nat} (bad : count = 0 ∨ 4 < count) : s.read count = s.deny .badArg := by
  simp only [State.read, if_neg (show ¬ (1 ≤ count ∧ count ≤ 4) by omega)]

theorem rangeBytes_eq (zones : Option Range) : ∃ lo hi, rangeBytes zones = [lo, hi] ∧
    (∀ g, zones = some g → lo = byteOf g.lo ∧ hi = byteOf g.hi) ∧ (zones = none → lo = 0xFF#8 ∧ hi = 0xFF#8) := by
  cases zones with
  | none => exact ⟨_, _, rfl, nofun, fun _ => ⟨rfl, rfl⟩⟩
  | some g => exact ⟨_, _, rfl, fun _ same => Option.some.inj same ▸ ⟨rfl, rfl⟩, nofun⟩

/-- R185: the read seq, and whether there is one. -/
theorem State.readSeq_bytes (s : State) :
    [byteOf (flagAt 0 s.readSeq.isSome)] ++ seqBytes s.readSeq =
      if s.order.step = .off then [0x00#8, 0x00#8, 0x00#8] else 0x01#8 :: halfBytes (s.order.expected - 1) := by
  unfold State.readSeq
  split
  · next off => rw [if_pos off]; rfl
  · next behind => rw [if_neg (by simp [behind])]; rfl
  · next inStep => rw [if_neg (by simp [inStep])]; rfl

/-- R185: the cursor's index after a read of up to `count` entries. -/
def State.indexAfter (s : State) (count : Nat) : Nat :=
  if s.port.cursor.auto then
    s.port.cursor.index + min count (s.viewLength s.port.cursor.view - s.port.cursor.index)
  else s.port.cursor.index

theorem State.read_of_good {s : State} {count : Nat} (some : 1 ≤ count) (few : count ≤ 4) :
    s.read count =
      { state := { s with port := { s.port with cursor := { s.port.cursor with index := s.indexAfter count } } }
        code := .ok
        data := (if s.order.step = .off then [0x00#8, 0x00#8, 0x00#8] else 0x01#8 :: halfBytes (s.order.expected - 1)) ++
          [s.port.cursor.view.code, byteOf (s.indexAfter count)] ++
          ((List.range (min count (s.viewLength s.port.cursor.view - s.port.cursor.index))).flatMap fun i =>
            (s.viewEntry s.port.cursor.view (s.port.cursor.index + i)).getD []) ++
          (if min count (s.viewLength s.port.cursor.view - s.port.cursor.index) < count then [0xFF#8] else []) } := by
  have cursor : (if s.port.cursor.auto then { s.port.cursor with
      index := s.port.cursor.index + min count (s.viewLength s.port.cursor.view - s.port.cursor.index) }
      else s.port.cursor) = { s.port.cursor with index := s.indexAfter count } := by
    unfold State.indexAfter
    split <;> rfl
  simp only [State.read, if_pos (And.intro some few), readEntries_eq, cursor, State.readSeq_bytes, List.append_assoc]

theorem State.viewEntry_slots (s : State) (t : Tag) : s.viewEntry .slots t.val = some (s.slotEntry t) := by
  simp [State.viewEntry]

theorem entryKindCode_of_some {entry : Option Entry} {e : Entry} (some : entry = some e) :
    (e.kind = .claim → entryKindCode entry = 0x01#8) ∧ (e.kind = .release → entryKindCode entry = 0x02#8) ∧
      (e.kind = .withdraw → entryKindCode entry = 0x03#8) := by
  subst some
  unfold entryKindCode
  rw [Option.map_some]
  refine ⟨fun kind => ?_, fun kind => ?_, fun kind => ?_⟩ <;> rw [kind]

theorem Slot.holdLeft_of_counting {x : Slot} {left : Nat} (held : x.state = .held) (running : x.holdTimer = .running left) :
    x.holdLeft = left := by
  simp only [Slot.holdLeft, held, running]

theorem Slot.holdLeft_of_not_counting {x : Slot} (idle : x.state ≠ .held ∨ x.holdTimer = .stopped) : x.holdLeft = 0 := by
  unfold Slot.holdLeft
  split
  · next held running => exact absurd idle (by simp [held, running])
  · rfl

/-- Settles O25. -/
theorem viewSetsTheCursorAndReadFollowsIt : Obligations.ViewSetsTheCursorAndReadFollowsIt := by
  refine ⟨fun s r code index auto asks => ⟨fun bad => ?_, fun plain v named => ?_⟩,
    fun s r count asks => ⟨fun bad => ?_, fun some few => ?_⟩, fun s i r at_ => ?_, fun s n => ?_,
    fun s t => ⟨fun free => ?_, fun used => ?_⟩⟩
  · exact exec_answered asks rfl rfl (effectOf_view_of_none s ((cursorOf_eq_none_iff code index auto).2 bad))
  · exact exec_answered asks rfl rfl (effectOf_view_of_some s (cursorOf_of_named plain named))
  · exact exec_answered asks rfl rfl (State.read_of_bad bad)
  · exact exec_answered asks rfl rfl (State.read_of_good some few)
  · obtain ⟨lo, hi, range, present, absent⟩ := rangeBytes_eq r.zones
    have flags := getLsbD_sixFlags r.zones.isSome (decide (r.state = .held)) r.grantedAt.isSome false false false
    refine ⟨_, lo, hi, ?_, flags 0, flags 1, flags 2, fun k above => (flags k).trans ?_, present, absent⟩
    · simp only [State.viewEntry, at_, Option.map_some, tableEntry, range]
      rfl
    · match k, above with
      | 3, _ | 4, _ | 5, _ | k + 6, _ => rfl
  · have flags := getLsbD_sixFlags (s.roster.isMember n) (decide (s.roster.reference = some n)) false false false false
    refine ⟨_, ?_, flags 0, flags 1, fun k above => (flags k).trans ?_⟩
    · simp only [State.viewEntry, n.isLt, dif_pos]
      rfl
    · match k, above with
      | 2, _ | 3, _ | 4, _ | 5, _ | k + 6, _ => rfl
  · rw [State.viewEntry_slots, State.slotEntry]
    rw [if_pos (show (s.slot t).state = .free from free), show (s.slot t).state = .free from free]
    rfl
  · obtain ⟨lo, hi, range, present, absent⟩ := rangeBytes_eq (s.slot t).zones
    have flags := getLsbD_sixFlags (s.slot t).zones.isSome (s.slot t).admittedAt.isSome (s.slot t).grantedAt.isSome
      (s.slotOnLine t) false false
    refine ⟨_, _, lo, hi, (s.slot t).mark.code, entryKindCode (s.slots.entryOf t), ?_, rfl, flags 0, flags 1, flags 2, flags 3, fun k above => (flags k).trans ?_, present,
      absent, ?_⟩
    · rw [State.viewEntry_slots, State.slotEntry]
      rw [if_neg (show ¬ (s.slot t).state = .free from used), range]
      rfl
    · match k, above with
      | 4, _ | 5, _ | k + 6, _ => rfl
    · refine ⟨congrArg Mark.code, congrArg Mark.code, congrArg Mark.code, congrArg entryKindCode, fun e => entryKindCode_of_some,
        Slot.holdLeft_of_not_counting, fun left held running => Slot.holdLeft_of_counting held running⟩

/-! ### TAKE (R191, R193, R203) -/

/-- R193: the idle timer and flag after a TAKE, by what is left in the queue. -/
theorem Port.idleAfterTake_timer (p : Port) (timeout : Nat) :
    (p.events = [] → (p.idleAfterTake timeout).idleFlag = false ∧ (p.idleAfterTake timeout).idleTimer = .stopped) ∧
    (p.events ≠ [] → (p.idleAfterTake timeout).idleFlag = p.idleFlag) ∧
    (p.events ≠ [] → p.idleFlag = true → (p.idleAfterTake timeout).idleTimer = p.idleTimer) ∧
    (p.events ≠ [] → p.idleFlag = false → timeout ≠ 0 → (p.idleAfterTake timeout).idleTimer = .running timeout) := by
  unfold Port.idleAfterTake
  by_cases none : p.events = []
  · simp [none]
  · have some : ¬ p.events.isEmpty = true := by simpa using none
    simp only [none, if_neg some]
    refine ⟨nofun, fun _ => by split <;> rfl, fun _ set => ?_, fun _ clear on => ?_⟩
    · rw [if_neg (by simp [set])]
    · rw [if_pos (by simp [clear, on])]

theorem State.take_of_bad {s : State} {count : Nat} (bad : count = 0 ∨ 4 < count) : s.take count = s.deny .badArg := by
  simp only [State.take, if_neg (show ¬ (1 ≤ count ∧ count ≤ 4) by omega)]

theorem State.take_of_good {s : State} {count : Nat} (some : 1 ≤ count) (few : count ≤ 4) :
    s.take count =
      { state := { s with port := Port.idleAfterTake { s.port with events := s.port.events.drop count } s.cfg.idleTimeout }
        code := .ok
        data := [byteOf (s.port.events.drop count).length, byteOf (s.port.events.take count).length] ++
          (s.port.events.take count).flatMap Event.bytes } := by
  simp only [State.take, if_pos (And.intro some few)]

/-- R203: the cause byte of a DUPLICATE event is the foreign frame's kind code. -/
theorem CauseField.code_kind (k : Kind) : (CauseField.kind k).code = byteOf k.code := by cases k <;> rfl

/-- Settles O26. -/
theorem takeRemovesTheOldestEvents : Obligations.TakeRemovesTheOldestEvents := by
  refine ⟨fun s r count asks => ⟨fun bad => ?_, fun some few => ?_⟩, fun e => ?_, rfl, rfl⟩
  · exact exec_answered asks rfl rfl (State.take_of_bad bad)
  · refine ⟨_, exec_answered asks rfl rfl (State.take_of_good some few), ?_,
      Port.idleAfterTake_timer { s.port with events := s.port.events.drop count.toNat } s.cfg.idleTimeout⟩
    rw [Port.idleAfterTake_eq]
    rfl
  · have flags := getLsbD_sixFlags e.seq.isSome e.tag.isSome e.station.isSome e.state.isSome e.cause.isSome e.count.isSome
    refine ⟨_, _, _, _, _, (e.cause.map CauseField.code).getD 0, _, rfl, rfl, flags 0, flags 1, flags 2, flags 3, flags 4,
      flags 5, fun k above => (flags k).trans ?_, rfl, rfl, rfl, rfl, fun none => ?_, fun c cause => ?_, fun k kind => ?_⟩
    · simp [List.getD_eq_getElem?_getD, show ¬ k < 6 by omega]
    · rw [none]
      rfl
    · rw [cause]
      rfl
    · rw [kind]
      exact CauseField.code_kind k

end Sys2Proof.Machine

/-! # Giving claims up (R143, R145, R155, R157, R168, R169) -/

namespace Sys2Proof.Machine

/-! ### The entries of the other slots (R140) -/

section Entries

variable (u : SlotUnit) {t k : Tag}

theorem SlotUnit.entryOf_push_of_ne (other : k ≠ t) (kind : EntryKind) : (u.push kind t).entryOf k = u.entryOf k := by
  simp [SlotUnit.entryOf, SlotUnit.push, List.find?_append, other.symm]

theorem SlotUnit.entryOf_dropEntryOf_of_ne (other : k ≠ t) : (u.dropEntryOf t).entryOf k = u.entryOf k := by
  unfold SlotUnit.entryOf SlotUnit.dropEntryOf
  rw [List.find?_filter]
  congr 1
  funext e
  by_cases same : e.tag = k
  · simp [same, other]
  · simp [same]

theorem SlotUnit.entryOf_toRelease_of_ne (other : k ≠ t) : (u.toRelease t).entryOf k = u.entryOf k := by
  unfold SlotUnit.entryOf SlotUnit.toRelease
  dsimp only
  induction u.queue with
  | nil => rfl
  | cons e queue ih =>
    rw [List.map_cons, List.find?_cons, List.find?_cons, ih]
    by_cases same : e.tag = k
    · rw [if_neg (by simp [same, other])]
    · by_cases turned : e.tag = t ∧ e.purged = false
      · rw [if_pos turned]
        simp [same]
      · rw [if_neg turned]

end Entries

/-! ### FREE on one slot (R143) -/

/-- R143: the slot that FREE leaves, by its state, whether its entry is on the line, and whether it has an entry. -/
def Slot.givenUp (x : Slot) (c : ReleaseCause) (onLine queued : Bool) : Slot :=
  match x.state with
  | .free | .releasing => x
  | .pending =>
    if onLine then (if x.mark = .releaseAfter then x else { x with mark := .releaseAfter, cause := some c })
    else Slot.empty
  | .waiting => { x.toReleasing .none with cause := some c }
  | .held => { x.toReleasing (if queued then .releaseAfter else .none) with cause := some c }
  | .cancelling =>
    if onLine then (if x.mark = .releaseAfter then x else { x with mark := .releaseAfter, cause := some c })
    else { x.toReleasing .none with cause := some c }

section FreeSlot

variable (s : State) (t : Tag) (c : ReleaseCause)

/-- R143: FREE changes its own slot only. -/
theorem freeSlot_slot (k : Tag) :
    (s.freeSlot t c).1.slot k =
      if k = t then (s.slot t).givenUp c (s.slotOnLine t) (s.slots.entryOf t).isSome else s.slot k := by
  have stays : s.slot k = if k = t then s.slot t else s.slot k := by
    split
    · next same => rw [same]
    · rfl
  have marks (sending : (s.slot t).state = .pending ∨ (s.slot t).state = .cancelling) (onLine : s.slotOnLine t = true) :
      (s.freeSlot t c).1.slot k =
        if k = t then (if (s.slot t).mark = .releaseAfter then s.slot t
          else { s.slot t with mark := .releaseAfter, cause := some c }) else s.slot k := by
    by_cases marked : (s.slot t).mark = .releaseAfter
    · rw [State.freeSlot_of_onLine_marked c sending onLine marked, if_pos marked]
      exact stays
    · rw [State.freeSlot_of_onLine_unmarked c sending onLine marked, if_neg marked]
      exact s.setSlot_slot t _ k
  unfold Slot.givenUp
  cases state : (s.slot t).state with
  | free =>
    rw [State.freeSlot_of_free c state]
    exact stays
  | releasing =>
    rw [State.freeSlot_of_releasing c state]
    exact stays
  | pending =>
    cases onLine : s.slotOnLine t with
    | false =>
      rw [State.freeSlot_of_pending_offLine c state onLine]
      exact s.setSlot_slot t Slot.empty k
    | true =>
      refine (marks (.inl state) onLine).trans ?_
      simp only [reduceIte, state]
  | waiting =>
    rw [State.freeSlot_of_unqueued c (.inl state)]
    exact s.setSlot_slot t _ k
  | held =>
    cases entry : s.slots.entryOf t with
    | none =>
      rw [State.freeSlot_of_unqueued c (.inr ⟨state, entry⟩)]
      exact s.setSlot_slot t _ k
    | some e =>
      rw [State.freeSlot_of_held_overtaken c state (by simp [entry])]
      exact s.setSlot_slot t _ k
  | cancelling =>
    cases onLine : s.slotOnLine t with
    | false =>
      rw [State.freeSlot_of_cancelling_offLine c state onLine]
      exact s.setSlot_slot t _ k
    | true =>
      refine (marks (.inr state) onLine).trans ?_
      simp only [reduceIte, state]

/-- R143: FREE leaves the entries of the other slots. -/
theorem freeSlot_entryOf_of_ne {k : Tag} (other : k ≠ t) : (s.freeSlot t c).1.slots.entryOf k = s.slots.entryOf k := by
  unfold State.freeSlot
  dsimp only
  repeat' split
  all_goals
    first
    | rfl
    | exact SlotUnit.entryOf_dropEntryOf_of_ne _ other
    | exact SlotUnit.entryOf_push_of_ne _ other _
    | exact SlotUnit.entryOf_toRelease_of_ne _ other

theorem freeSlot_slotOnLine_of_ne {k : Tag} (other : k ≠ t) : (s.freeSlot t c).1.slotOnLine k = s.slotOnLine k := by
  have line : (s.freeSlot t c).1.line = s.line := congrArg SlotRest.line (freeSlot_slotRest s t c)
  simp only [State.slotOnLine, freeSlot_entryOf_of_ne s t c other, State.entryOnLine, line]

/-- R143: only the end of a PENDING slot tells anything. -/
theorem freeSlot_port_of_not_pending (calm : (s.slot t).state ≠ .pending) : (s.freeSlot t c).1.port = s.port := by
  unfold State.freeSlot
  dsimp only
  split
  case h_2 pending => exact absurd pending calm
  all_goals (repeat' split) <;> rfl

theorem freeSlot_hostCheck : (s.freeSlot t c).1.slots.hostCheck = s.slots.hostCheck :=
  congrArg SlotRest.hostCheck (freeSlot_slotRest s t c)

end FreeSlot

/-! ### FREE on slots one by one (R145) -/

/-- R145: each slot is given up by itself. -/
theorem foldl_giveUp_slot (c : ReleaseCause) (k : Tag) (l : List Tag) (once : l.Nodup) (s : State) :
    (l.foldl (State.giveUp c) s).slot k =
      if k ∈ l then (s.slot k).givenUp c (s.slotOnLine k) (s.slots.entryOf k).isSome else s.slot k := by
  induction l generalizing s with
  | nil => rfl
  | cons t l ih =>
    obtain ⟨fresh, once⟩ := List.nodup_cons.1 once
    rw [List.foldl_cons, ih once, State.giveUp, freeSlot_slot]
    by_cases same : k = t
    · subst same
      rw [if_neg fresh, if_pos rfl, if_pos List.mem_cons_self]
    · rw [freeSlot_slotOnLine_of_ne s t c same, freeSlot_entryOf_of_ne s t c same]
      simp [same]

theorem surrender_slot (s : State) (k : Tag) :
    s.surrender.slot k = (s.slot k).givenUp .surrender (s.slotOnLine k) (s.slots.entryOf k).isSome := by
  rw [State.surrender, foldl_giveUp_slot _ _ tags (List.nodup_finRange 8), if_pos (show k ∈ tags from List.mem_finRange k)]

theorem Slot.givenUp_not_pending {x : Slot} (c : ReleaseCause) (onLine queued : Bool) (calm : x.state ≠ .pending) :
    (x.givenUp c onLine queued).state ≠ .pending := by
  unfold Slot.givenUp
  repeat' split
  all_goals simp_all [Slot.toReleasing]

/-- R145: a surrender tells nothing when no slot is PENDING. -/
theorem foldl_giveUp_port (c : ReleaseCause) (l : List Tag) (s : State) (calm : ∀ k, (s.slot k).state ≠ .pending) :
    (l.foldl (State.giveUp c) s).port = s.port := by
  induction l generalizing s with
  | nil => rfl
  | cons t l ih =>
    rw [List.foldl_cons, ih (State.giveUp c s t) ?_]
    · exact freeSlot_port_of_not_pending s t c (calm t)
    · intro k
      rw [State.giveUp, freeSlot_slot]
      split
      · exact Slot.givenUp_not_pending _ _ _ (calm t)
      · exact calm k

/-- R143: no slot given up is HELD or WAITING. -/
theorem Slot.givenUp_not_granted (x : Slot) (c : ReleaseCause) (onLine queued : Bool) :
    (x.givenUp c onLine queued).state ≠ .held ∧ (x.givenUp c onLine queued).state ≠ .waiting := by
  unfold Slot.givenUp
  cases state : x.state with
  | free | releasing => simp [state]
  | waiting | held => simp [Slot.toReleasing]
  | pending | cancelling => cases onLine <;> (dsimp only; repeat' split) <;> simp_all [Slot.toReleasing, Slot.empty]

section GivenUp

variable {x : Slot} {onLine queued : Bool} (c : ReleaseCause)

theorem Slot.givenUp_of_unqueued (inTable : x.state = .waiting ∨ x.state = .held ∧ queued = false) :
    x.givenUp c onLine queued = { x with state := .releasing, mark := .none, cause := some c, holdTimer := .stopped } := by
  obtain waiting | ⟨held, unqueued⟩ := inTable
  · simp [Slot.givenUp, waiting, Slot.toReleasing]
  · simp [Slot.givenUp, held, unqueued, Slot.toReleasing]

theorem Slot.givenUp_of_overtaken (held : x.state = .held) (entry : queued = true) :
    x.givenUp c onLine queued =
      { x with state := .releasing, mark := .releaseAfter, cause := some c, holdTimer := .stopped } := by
  simp [Slot.givenUp, held, entry, Slot.toReleasing]

theorem Slot.givenUp_of_pending (pending : x.state = .pending) : x.givenUp c false queued = Slot.empty := by
  simp [Slot.givenUp, pending]

theorem Slot.givenUp_of_cancelling (cancelling : x.state = .cancelling) :
    x.givenUp c false queued = { x with state := .releasing, mark := .none, cause := some c, holdTimer := .stopped } := by
  simp [Slot.givenUp, cancelling, Slot.toReleasing]

theorem Slot.givenUp_of_unmarked (sending : x.state = .pending ∨ x.state = .cancelling) (unmarked : x.mark ≠ .releaseAfter) :
    x.givenUp c true queued = { x with mark := .releaseAfter, cause := some c } := by
  obtain pending | cancelling := sending
  · simp [Slot.givenUp, pending, unmarked]
  · simp [Slot.givenUp, cancelling, unmarked]

theorem Slot.givenUp_of_marked (sending : x.state = .pending ∨ x.state = .cancelling) (marked : x.mark = .releaseAfter) :
    x.givenUp c true queued = x := by
  obtain pending | cancelling := sending
  · simp [Slot.givenUp, pending, marked]
  · simp [Slot.givenUp, cancelling, marked]

theorem Slot.givenUp_of_idle (idle : x.state = .free ∨ x.state = .releasing) : x.givenUp c onLine queued = x := by
  obtain free | releasing := idle
  · simp [Slot.givenUp, free]
  · simp [Slot.givenUp, releasing]

end GivenUp

theorem State.covers_of_none_held {s : State} (none : ∀ k, (s.slot k).state ≠ .held) (z : Nat) : s.covers z = false := by
  unfold State.covers
  rw [List.any_eq_false]
  intro k _ covered
  obtain ⟨held, _⟩ := Bool.and_eq_true_iff.1 covered
  exact none k (of_decide_eq_true held)

/-- Settles O22, slot by slot from `surrender_slot`. -/
theorem surrenderGivesUpEverySlot : Obligations.SurrenderGivesUpEverySlot := by
  refine fun s r asks => ⟨fun noMember noLeaving => ?_, fun inGroup => ?_⟩
  · exact exec_answered asks rfl rfl (if_neg (mt s.memberFlag_iff.1 (not_or.2 ⟨noMember, noLeaving⟩)))
  · refine ⟨_, exec_answered asks rfl rfl (if_pos (s.memberFlag_iff.2 inGroup)), rfl, ?_⟩
    have slot := surrender_slot s
    have rest := surrender_slotRest s
    generalize s.surrender = u at slot rest
    refine ⟨fun k => ?_, State.covers_of_none_held fun k => ?_, ?_⟩
    · change (u.slot k).state ≠ .held ∧ (u.slot k).state ≠ .waiting ∧ (_ → u.slot k = _) ∧ (_ → _ → u.slot k = _) ∧
        (_ → _ → u.slot k = _) ∧ (_ → _ → u.slot k = _) ∧ (_ → _ → _ → u.slot k = _) ∧ (_ → _ → _ → u.slot k = _) ∧
        (_ → u.slot k = _)
      rw [slot]
      refine ⟨(Slot.givenUp_not_granted _ _ _ _).1, (Slot.givenUp_not_granted _ _ _ _).2, fun inTable => ?_,
        fun held entry => ?_, fun pending offLine => ?_, fun cancelling offLine => ?_, fun sending onLine unmarked => ?_,
        fun sending onLine marked => ?_, Slot.givenUp_of_idle _⟩
      · exact Slot.givenUp_of_unqueued _ (inTable.imp_right fun ⟨held, empty⟩ => ⟨held, by rw [empty]; rfl⟩)
      · exact Slot.givenUp_of_overtaken _ held (Option.isSome_iff_ne_none.2 entry)
      · rw [offLine]
        exact Slot.givenUp_of_pending _ pending
      · rw [offLine]
        exact Slot.givenUp_of_cancelling _ cancelling
      · rw [onLine]
        exact Slot.givenUp_of_unmarked _ sending unmarked
      · rw [onLine]
        exact Slot.givenUp_of_marked _ sending marked
    · change (u.slot k).state ≠ .held
      rw [slot]
      exact (Slot.givenUp_not_granted _ _ _ _).1
    · exact ⟨congrArg SlotRest.table rest, congrArg SlotRest.roster rest, congrArg SlotRest.order rest,
        congrArg SlotRest.mem rest, congrArg SlotRest.pres rest, congrArg SlotRest.cu rest, congrArg SlotRest.line rest,
        congrArg SlotRest.zl rest, congrArg SlotRest.cfg rest⟩

/-! ### The hold timer and the host-check timer (R155, R157) -/

section Expiry

variable {s : State} {left : Nat}

theorem exec_holdTimerExpiry_of_running {k : Tag} (on : s.power = .on)
    (running : (s.slots.slots[k]).holdTimer = .running left) :
    exec (.holdTimerExpiry k) s = .next ((s.emit (slotEvent .holdExpired k none none)).freeSlot k .hold).1 := by
  have runs : (s.slot k).holdTimer = .running left := running
  change execHoldTimerExpiry k s = _
  rw [execHoldTimerExpiry, happening_of_enabled (by simp [on, runs])]
  rfl

theorem exec_hostCheckExpiry_of_running (on : s.power = .on) (running : s.slots.hostCheck = .running left) :
    exec .hostCheckExpiry s = .next
      { (s.emit { kind := .hostSilent }).surrender with
        slots := { (s.emit { kind := .hostSilent }).surrender.slots with hostCheck := .expired } } := by
  change execHostCheckExpiry s = _
  rw [execHostCheckExpiry, happening_of_enabled (by simp [on, running])]

end Expiry

/-- Settles O45. -/
theorem holdAndHostCheckExpiriesGiveUpSlots : Obligations.HoldAndHostCheckExpiriesGiveUpSlots := by
  refine ⟨fun s k left on held running => ⟨fun noEntry => ?_, fun entry => ?_⟩, fun s left on running => ?_⟩
  · rw [exec_holdTimerExpiry_of_running on running, State.freeSlot_of_unqueued (s := s.emit _) .hold (.inr ⟨held, noEntry⟩)]
    rfl
  · rw [exec_holdTimerExpiry_of_running on running, State.freeSlot_of_held_overtaken (s := s.emit _) .hold held entry]
    rfl
  · refine ⟨_, exec_hostCheckExpiry_of_running on running, ?_⟩
    have slot := surrender_slot (s.emit { kind := .hostSilent })
    have rest := surrender_slotRest (s.emit { kind := .hostSilent })
    have silent (calm : ∀ k, (s.slot k).state ≠ .pending) :
        (s.emit { kind := .hostSilent }).surrender.port = (s.emit { kind := .hostSilent }).port :=
      foldl_giveUp_port _ tags _ calm
    generalize (s.emit { kind := .hostSilent }).surrender = u at slot rest silent
    refine ⟨rfl, fun k => ?_, silent, ?_⟩
    · change (u.slot k).state ≠ .held ∧ (u.slot k).state ≠ .waiting ∧ (_ → u.slot k = _) ∧ (_ → u.slot k = _)
      rw [slot]
      exact ⟨(Slot.givenUp_not_granted _ _ _ _).1, (Slot.givenUp_not_granted _ _ _ _).2,
        fun inTable => Slot.givenUp_of_unqueued _ (inTable.imp_right fun ⟨held, empty⟩ =>
          ⟨held, congrArg Option.isSome empty⟩), Slot.givenUp_of_idle _⟩
    · exact ⟨congrArg SlotRest.table rest, congrArg SlotRest.roster rest, congrArg SlotRest.order rest,
        congrArg SlotRest.mem rest, congrArg SlotRest.pres rest, congrArg SlotRest.cu rest, congrArg SlotRest.line rest,
        congrArg SlotRest.zl rest, congrArg SlotRest.cfg rest⟩

/-! ### Release inputs (R168, R169) -/

section ReleaseInput

variable {s : State}

/-- R168: a change that a release input of a running part does not read. -/
theorem exec_releaseInPinChange_of_unread {l : LineNo} {high : Bool}
    (unread : s.power ≠ .on ∨ (s.cfg.lines[l]).mode ≠ .releaseIn ∨ s.zl.pinIn[l] = high) :
    exec (.releaseInPinChange l high) s = .next { s with zl := { s.zl with pinIn := s.zl.pinIn.set l high } } := by
  have off : ¬ (s.isOn && s.isReleaseIn l && decide (s.zl.pinIn[l] ≠ high)) = true := by
    rw [Bool.and_eq_true, Bool.and_eq_true, State.isOn_iff, State.isReleaseIn, decide_eq_true_eq, decide_eq_true_eq]
    tauto
  change execReleaseInPinChange l high s = _
  rw [execReleaseInPinChange, happening_true]
  dsimp only
  rw [if_neg off]

theorem exec_releaseInPinChange_of_read {l : LineNo} {high : Bool} (on : s.power = .on)
    (input : (s.cfg.lines[l]).mode = .releaseIn) (changes : s.zl.pinIn[l] ≠ high) :
    exec (.releaseInPinChange l high) s = .next { s with zl := { s.zl with
      pinIn := s.zl.pinIn.set l high, qual := s.zl.qual.set l (qualOnChange s.zl.settled[l] high s.zl.qual[l]) } } := by
  have reads : (s.isOn && s.isReleaseIn l && decide (s.zl.pinIn[l] ≠ high)) = true := by
    rw [Bool.and_eq_true, Bool.and_eq_true, State.isOn_iff, State.isReleaseIn, decide_eq_true_eq, decide_eq_true_eq]
    exact ⟨⟨on, input⟩, changes⟩
  change execReleaseInPinChange l high s = _
  rw [execReleaseInPinChange, happening_true]
  dsimp only
  rw [if_pos reads]

theorem Polarity.assertedLevel_eq (p : Polarity) : p.assertedLevel = decide (p = .high) := by cases p <;> rfl

theorem exec_qualificationExpiry_of_running {l : LineNo} {left : Nat} (on : s.power = .on)
    (input : (s.cfg.lines[l]).mode = .releaseIn) (running : s.zl.qual[l] = .running left) :
    exec (.qualificationExpiry l) s = .next
      { s with zl := { s.zl with
          settled := s.zl.settled.set l (!s.zl.settled[l])
          qual := s.zl.qual.set l .stopped
          edges :=
            if (!s.zl.settled[l]) = decide ((s.cfg.lines[l]).polarity = .high) then
              s.zl.edges ++ [(s.cfg.lines[l]).zone]
            else s.zl.edges } } := by
  have reads : s.isReleaseIn l = true := decide_eq_true input
  change execQualificationExpiry l s = _
  rw [execQualificationExpiry, happening_of_enabled (by rw [running, reads]; simp [on])]
  simp only [Polarity.assertedLevel_eq]

/-- R169: an edge handed on for a zone is taken. -/
def State.withoutEdge (s : State) (z : Nat) : State := { s with zl := { s.zl with edges := s.zl.edges.erase z } }

theorem exec_releaseEdge_of_handedOn {z : Nat} (on : s.power = .on) (handedOn : z ∈ s.zl.edges) :
    exec (.releaseEdge z) s = .next ((s.withoutEdge z).releaseZone z) := by
  change execReleaseEdge z s = _
  rw [execReleaseEdge, happening_of_enabled (by simp [on, handedOn])]
  rfl

end ReleaseInput

/-- R145: the slot covers the zone. -/
theorem covering_iff (x : Slot) (z : Nat) :
    (decide (x.state = .held) && (match x.zones with | some g => g.covers z | none => false)) = true ↔
      x.state = .held ∧ ∃ g, x.zones = some g ∧ g.lo ≤ z ∧ z ≤ g.hi := by
  cases x.zones <;> simp [Range.covers]

section HeldSlot

variable {s : State} {z : Nat}

theorem State.releaseZone_of_uncovered
    (uncovered : ∀ k, ¬ ((s.slot k).state = .held ∧ ∃ g, (s.slot k).zones = some g ∧ g.lo ≤ z ∧ z ≤ g.hi)) :
    s.releaseZone z = s.bump .ignoredEdges := by
  have none : s.heldSlotOf z = none := List.find?_eq_none.2 fun k _ covers => uncovered k ((covering_iff _ z).1 covers)
  rw [State.releaseZone, none]

theorem State.releaseZone_of_lowest {k : Tag}
    (covers : (s.slot k).state = .held ∧ ∃ g, (s.slot k).zones = some g ∧ g.lo ≤ z ∧ z ≤ g.hi)
    (lowest : ∀ j, ((s.slot j).state = .held ∧ ∃ g, (s.slot j).zones = some g ∧ g.lo ≤ z ∧ z ≤ g.hi) → k ≤ j) :
    s.releaseZone z = (s.freeSlot k .line).1 := by
  have found : s.heldSlotOf z = some k :=
    tags_find?_of_lowest ((covering_iff _ z).2 covers) fun j passes => lowest j ((covering_iff _ z).1 passes)
  rw [State.releaseZone, found]
  rfl

end HeldSlot

/-- Settles O46. -/
theorem releaseInputsAreQualifiedAndActOnce : Obligations.ReleaseInputsAreQualifiedAndActOnce := by
  refine ⟨fun s l high => ⟨exec_releaseInPinChange_of_unread, fun on input changes => ⟨fun back => ?_, fun away stopped => ?_⟩⟩,
    fun s l left on input running => exec_qualificationExpiry_of_running on input running,
    fun s z on handedOn => ⟨fun uncovered => ?_, fun k covers lowest => ⟨fun noEntry => ?_, fun entry => ?_⟩⟩⟩
  · rw [exec_releaseInPinChange_of_read on input changes, qualOnChange, if_pos back.symm]
  · rw [exec_releaseInPinChange_of_read on input changes, qualOnChange, if_neg (Ne.symm away), stopped]
    rfl
  · rw [exec_releaseEdge_of_handedOn on handedOn, State.releaseZone_of_uncovered (s := s.withoutEdge z) uncovered]
    rfl
  · rw [exec_releaseEdge_of_handedOn on handedOn, State.releaseZone_of_lowest (s := s.withoutEdge z) covers lowest,
      State.freeSlot_of_unqueued (s := s.withoutEdge z) .line (.inr ⟨covers.1, noEntry⟩)]
    rfl
  · rw [exec_releaseEdge_of_handedOn on handedOn, State.releaseZone_of_lowest (s := s.withoutEdge z) covers lowest,
      State.freeSlot_of_held_overtaken (s := s.withoutEdge z) .line covers.1 entry]
    rfl

end Sys2Proof.Machine

/-! # The event queue, the zone lines and the passing of time (R51, R155, R164 to R167, R189) -/

namespace Sys2Proof.Machine

/-! ### An append to the event queue (R189, R193) -/

/-- Settles O51. -/
theorem eventAppendActsByTheDepth : Obligations.EventAppendActsByTheDepth := by
  intro s e
  refine ⟨?_, fun few => ?_, fun full => ?_, fun older newest n queue depth count => ?_, fun empty on => ?_, fun other => ?_⟩
  · change { s with port := s.port.append s.cfg.idleTimeout e } = _
    rw [Port.append_eq]
    rfl
  · obtain ⟨_, events⟩ | ⟨deep, _⟩ | ⟨deep, _⟩ := s.port.append_cases s.cfg.idleTimeout e
    · exact events
    all_goals omega
  · obtain ⟨shallow, _⟩ | ⟨_, events⟩ | ⟨deep, _⟩ := s.port.append_cases s.cfg.idleTimeout e
    · omega
    · exact events
    · omega
  · have length : s.port.events.length = 32 := by simp [queue, depth]
    obtain ⟨shallow, _⟩ | ⟨shallow, _⟩ | ⟨_, events⟩ := s.port.append_cases s.cfg.idleTimeout e
    · omega
    · omega
    · refine events.trans ?_
      rw [queue, bumpNewest_append, count]
      rfl
  · change (s.port.append s.cfg.idleTimeout e).idleTimer = _
    simp [Port.append, empty, on, Config.maxEvents]
  · obtain some | off := other
    · exact s.port.append_idleTimer_of_ne_nil _ _ some
    · change (s.port.append s.cfg.idleTimeout e).idleTimer = _
      unfold Port.append
      rw [off]
      dsimp only
      repeat' split
      all_goals simp_all

/-! ### Zone lines (R164 to R167) -/

theorem State.covers_iff (s : State) (z : Nat) :
    s.covers z = true ↔ ∃ (k : Tag) (g : Range), (s.slots.slots[k]).state = .held ∧ (s.slots.slots[k]).zones = some g ∧
      g.lo ≤ z ∧ z ≤ g.hi := by
  unfold State.covers
  rw [List.any_eq_true]
  constructor
  · rintro ⟨k, _, covers⟩
    obtain ⟨held, g, zones, within⟩ := (covering_iff _ z).1 covers
    exact ⟨k, g, held, zones, within⟩
  · rintro ⟨k, g, held, zones, within⟩
    exact ⟨k, List.mem_finRange k, (covering_iff _ z).2 ⟨held, g, zones, within⟩⟩

/-- R165, R167: what each mode makes of the line. -/
theorem State.lineAsserted_of_mode (s : State) (l : LineNo) :
    ((s.cfg.lines[l]).mode = .grantOut →
      s.lineAsserted l = some (s.memberInStep && s.covers (s.cfg.lines[l]).zone)) ∧
    ((s.cfg.lines[l]).mode = .memberOut → s.lineAsserted l = some s.memberInStep) ∧
    ((s.cfg.lines[l]).mode = .off ∨ (s.cfg.lines[l]).mode = .releaseIn → s.lineAsserted l = none) := by
  unfold State.lineAsserted
  refine ⟨fun mode => by rw [mode], fun mode => by rw [mode], ?_⟩
  rintro (mode | mode) <;> rw [mode]

theorem State.pinDrive_of_none {s : State} {l : LineNo} (none : s.lineAsserted l = none) : s.pinDrive l = .highZ := by
  unfold State.pinDrive
  rw [none]
  split <;> rfl

theorem State.pinDrive_of_some {s : State} {l : LineNo} {a : Bool} (on : s.power = .on) (level : s.lineAsserted l = some a) :
    s.pinDrive l = if decide ((s.cfg.lines[l]).polarity = .high) = a then .high else .low := by
  unfold State.pinDrive
  rw [level, if_neg (by simp [on])]

/-- Settles O47. -/
theorem zoneLinesShowWhatTheStationHolds : Obligations.ZoneLinesShowWhatTheStationHolds := by
  intro s l
  obtain ⟨grantOut, memberOut, noOutput⟩ := s.lineAsserted_of_mode l
  refine ⟨fun mode => ?_, fun mode => ?_, fun mode => ⟨noOutput mode, State.pinDrive_of_none (noOutput mode)⟩,
    fun on => ⟨fun polarity level => ?_, fun polarity level => ?_, fun polarity level => ?_, fun polarity level => ?_⟩⟩
  · rw [grantOut mode]
    refine ⟨?_, nofun⟩
    rw [Option.some.injEq, Bool.and_eq_true, State.memberInStep_iff, State.covers_iff]
  · rw [memberOut mode]
    exact ⟨by rw [Option.some.injEq, State.memberInStep_iff], nofun⟩
  all_goals
    rw [State.pinDrive_of_some on level, polarity]
    rfl

/-! ### The step on an empty queue (log 2) -/

section EmptyQueue

variable {s : State}

theorem step_of_nil (empty : s.pending = []) : step s = s.idleStep := by
  rw [step, empty]

theorem State.idleStep_of_due {c : Instr} {rest : List Instr} (on : s.power = .on) (due : s.dueNow = c :: rest) :
    s.idleStep = exec c s := by
  rw [State.idleStep, if_pos ((State.isOn_iff s).2 on), due]

theorem State.idleStep_of_nothing_due (on : s.power = .on) (none : s.dueNow = []) : s.idleStep = .next s.bitTime := by
  rw [State.idleStep, if_pos ((State.isOn_iff s).2 on), none]

theorem State.mem_dueNow_of_expiries {c : Instr} (expires : c ∈ s.expiries) : c ∈ s.dueNow := by
  simp only [State.dueNow, List.mem_append]
  exact .inl (.inr expires)

theorem mem_commandWhen {b : Bool} {c : Instr} (holds : b = true) : c ∈ commandWhen b c := by
  simp [commandWhen, holds]

/-- The expiry of every timer that has come to 0 is due. -/
theorem State.expiries_due :
    (s.mem.listen = .running 0 → .listenTimerExpiry ∈ s.dueNow) ∧
      (s.pres.beat = .running 0 → .beatTimerExpiry ∈ s.dueNow) ∧
      (∀ x : StationNo, s.pres.absence[x] = .running 0 → .absenceTimerExpiry x ∈ s.dueNow) ∧
      (s.cu.wait = .running 0 → .catchupWaitExpiry ∈ s.dueNow) ∧
      (∀ k : Tag, (s.slots.slots[k]).holdTimer = .running 0 → .holdTimerExpiry k ∈ s.dueNow) ∧
      (s.slots.hostCheck = .running 0 → .hostCheckExpiry ∈ s.dueNow) ∧
      (s.port.idleTimer = .running 0 → .idleTimerExpiry ∈ s.dueNow) ∧
      (∀ l : LineNo, s.zl.qual[l] = .running 0 → .qualificationExpiry l ∈ s.dueNow) := by
  refine ⟨fun out => ?_, fun out => ?_, fun x out => ?_, fun out => ?_, fun k out => ?_, fun out => ?_, fun out => ?_,
    fun l out => ?_⟩
  all_goals
    apply State.mem_dueNow_of_expiries
    simp only [State.expiries, List.mem_append]
  · have due := mem_commandWhen (c := .listenTimerExpiry) (congrArg Timer.ranOut out)
    tauto
  · have due := mem_commandWhen (c := .beatTimerExpiry) (congrArg Timer.ranOut out)
    tauto
  · have due : Instr.absenceTimerExpiry x ∈
        ((List.finRange 16).filter fun n => s.pres.absence[n].ranOut).map Instr.absenceTimerExpiry :=
      List.mem_map_of_mem (List.mem_filter.2 ⟨List.mem_finRange x, congrArg Watch.ranOut out⟩)
    tauto
  · have due := mem_commandWhen (c := .catchupWaitExpiry) (congrArg Timer.ranOut out)
    tauto
  · have due : Instr.holdTimerExpiry k ∈ (tags.filter fun t => (s.slot t).holdTimer.ranOut).map Instr.holdTimerExpiry :=
      List.mem_map_of_mem (List.mem_filter.2 ⟨List.mem_finRange k, congrArg Timer.ranOut out⟩)
    tauto
  · have due := mem_commandWhen (c := .hostCheckExpiry) (congrArg Watch.ranOut out)
    tauto
  · have due := mem_commandWhen (c := .idleTimerExpiry) (congrArg Timer.ranOut out)
    tauto
  · have due : Instr.qualificationExpiry l ∈
        ((List.finRange 8).filter fun l => s.zl.qual[l].ranOut).map Instr.qualificationExpiry :=
      List.mem_map_of_mem (List.mem_filter.2 ⟨List.mem_finRange l, congrArg Timer.ranOut out⟩)
    tauto

end EmptyQueue

/-! ### One bit time (R51) -/

section BitTime

variable {l : LineIf}

theorem LineIf.bitTime_of_outside (outside : l.view ≠ .frame) :
    l.bitTime = { l with quietBits := min (l.quietBits + 1) 11, dominantBits := 0 } := by
  unfold LineIf.bitTime
  split
  case h_4 view => exact absurd view outside
  all_goals rfl

theorem LineIf.bitTime_of_receiving {read : List Bool} (frame : l.view = .frame) (nothing : l.awaiting = .nothing)
    (rx : l.rx = some read) :
    l.bitTime = { l with rx := some (read ++ [l.drive]), tx := l.tx.past (read.length + 1) } := by
  have after : l.frameAfter [l.drive] = some (read ++ [l.drive]) := by rw [LineIf.frameAfter, rx]; rfl
  have bit : l.bitTime = if l.awaiting = .nothing then l.reads [l.drive] else { l with slot := l.slotAfter [true] } := by
    unfold LineIf.bitTime
    rw [frame]
  rw [bit, if_pos nothing, LineIf.reads, after]
  simp

theorem LineIf.bitTime_of_awaiting (frame : l.view = .frame) (awaits : l.awaiting ≠ .nothing) :
    l.bitTime = { l with slot := l.slot ++ [l.awaiting.drive l.slot.length] } := by
  unfold LineIf.bitTime
  rw [frame]
  dsimp only
  rw [if_neg awaits]
  rfl

theorem LineIf.drive_of_idle (idle : l.tx = .idle) (nothing : l.awaiting = .nothing) : l.drive = true := by
  rw [LineIf.drive, LineIf.attempt, idle]
  dsimp only
  rw [nothing]
  rfl

theorem LineIf.drive_of_attempt {a : Attempt} {read : List Bool} {level : Bool} (sends : l.tx = .offering a ∨ l.tx = .sending a)
    (rx : l.rx = some read) (bit : a.frame.sent[read.length]? = some level) : l.drive = level := by
  have attempt : l.attempt = some a := by
    unfold LineIf.attempt
    obtain tx | tx := sends <;> rw [tx]
  rw [LineIf.drive, attempt]
  dsimp only
  rw [rx, Option.getD_some, bit, Option.getD_some]

/-- R52, R63: offering gives way to sending with the last bit of the arbitration field. -/
theorem Transmitter.past_of_attempt {t : Transmitter} {a : Attempt} (sends : t = .offering a ∨ t = .sending a) (n : Nat) :
    t.past n = if t = .offering a ∧ n < a.frame.arbitration then .offering a else .sending a := by
  obtain rfl | rfl := sends
  · by_cases arbitrating : n < a.frame.arbitration
    · rw [if_pos ⟨rfl, arbitrating⟩]
      exact if_neg (Nat.not_le.2 arbitrating)
    · rw [if_neg fun both => arbitrating both.2]
      exact if_pos (Nat.not_lt.1 arbitrating)
  · rw [if_neg (by simp)]
    rfl

/-- R197: a vetoing station drives bit times 8 and 9 after a frame's end, and no other. -/
theorem Awaiting.drive_of_veto {w : Awaiting} (veto : ∃ r, w = .heard r .veto) (n : Nat) :
    w.drive n = !(decide (n = 1) || decide (n = 2)) := by
  obtain ⟨r, rfl⟩ := veto
  rfl

theorem Awaiting.drive_of_no_veto {w : Awaiting} (noVeto : ¬ ∃ r, w = .heard r .veto) (n : Nat) : w.drive n = true := by
  unfold Awaiting.drive
  split
  · exact absurd ⟨_, rfl⟩ noVeto
  all_goals rfl

theorem Awaiting.drive_zero (w : Awaiting) : w.drive 0 = true := by
  by_cases veto : ∃ r, w = .heard r .veto
  · exact Awaiting.drive_of_veto veto 0
  · exact Awaiting.drive_of_no_veto veto 0

end BitTime

/-- R51: the line after a bit time, its millisecond clock apart. -/
theorem State.bitTime_line (s : State) : s.bitTime.line = { s.line.bitTime with clock := s.bitTime.line.clock } := by
  unfold State.bitTime
  split <;> rfl

/-- R155: 1 ms more has passed for every timer that runs. -/
theorem Timer.tick_running {w : Timer} {n : Nat} (running : w = .running (n + 1)) : w.tick = .running n := by
  subst running
  rfl

theorem Watch.tick_running {w : Watch} {n : Nat} (running : w = .running (n + 1)) : w.tick = .running n := by
  subst running
  rfl

/-- Settles O2. -/
theorem emptyQueueRunsTheStation : Obligations.EmptyQueueRunsTheStation := by
  intro s empty
  rw [step_of_nil empty]
  refine ⟨fun off => ?_, fun on r request => ?_, fun on c rest due => State.idleStep_of_due on due, State.expiries_due,
    fun on none => ⟨_, State.idleStep_of_nothing_due on none, fun more => ?_, fun last => ?_, fun outside => ?_,
      fun frame nothing read rx => ⟨fun idle => ?_, fun a level sends bit => ?_⟩, fun frame idle awaits => ⟨fun veto between => ?_, fun other => ?_⟩⟩⟩
  · rw [State.idleStep, if_neg (mt (State.isOn_iff s).1 off)]
  · refine State.idleStep_of_due (rest := (s.dueNow).tail) on ?_
    rw [State.dueNow, request]
    rfl
  · rw [State.bitTime, if_neg (by omega)]
    exact ⟨rfl, rfl⟩
  · rw [State.bitTime, if_pos last]
    refine ⟨rfl, empty, rfl, rfl, rfl, rfl, rfl, rfl, fun n => Timer.tick_running, fun n => Timer.tick_running,
      fun x n running => ?_, fun n => Timer.tick_running, fun k n running => ?_, fun n => Watch.tick_running,
      fun n => Timer.tick_running, fun l n running => ?_⟩
    · refine Eq.trans ?_ (Watch.tick_running running)
      simp [State.tick]
    · refine Eq.trans ?_ (Timer.tick_running running)
      simp [State.tick, Slot.tick]
    · refine Eq.trans ?_ (Timer.tick_running running)
      simp [State.tick]
  · rw [State.bitTime_line, LineIf.bitTime_of_outside outside]
  · rw [State.bitTime_line, LineIf.bitTime_of_receiving frame nothing rx, LineIf.drive_of_idle idle nothing,
      show s.line.tx.past (read.length + 1) = s.line.tx by rw [idle]; rfl]
  · rw [State.bitTime_line, LineIf.bitTime_of_receiving frame nothing rx, LineIf.drive_of_attempt sends rx bit,
      Transmitter.past_of_attempt sends]
  · rw [State.bitTime_line, LineIf.bitTime_of_awaiting frame awaits, Awaiting.drive_of_veto veto]
    obtain one | two := between
    · simp [one]
    · simp [two]
  · rw [State.bitTime_line, LineIf.bitTime_of_awaiting frame awaits]
    obtain noVeto | first := other
    · rw [Awaiting.drive_of_no_veto noVeto]
    · rw [first, Awaiting.drive_zero]

end Sys2Proof.Machine

/-! # A frame's bits, read back (R197 to R200) -/

namespace Sys2Proof.Machine

/-! ### The check value and a single bit (R200) -/

/-- R200: the feedback pattern's lowest bit is set, so the lowest bit of a step tells whether it fed back. -/
theorem checkStep_getLsbD_zero (reg : Half) (b : Bool) : (checkStep reg b).getLsbD 0 = (b ^^ reg.msb) := by
  unfold checkStep
  split
  · next feeds => rw [feeds]; simp
  · next plain => rw [Bool.not_eq_true] at plain; rw [plain]; simp

/-- R200: the bit that leaves the register and those that stay give all of it. -/
theorem eq_of_msb_shiftLeft {first second : Half} (top : first.msb = second.msb) (rest : first <<< 1 = second <<< 1) :
    first = second := by
  apply BitVec.eq_of_getLsbD_eq
  intro i within
  by_cases last : i = 15
  · subst last
    simpa [BitVec.msb_eq_getLsbD_last] using top
  · have shifted := congrArg (fun r => r.getLsbD (i + 1)) rest
    simp only [BitVec.getLsbD_shiftLeft, show i + 1 < 16 by omega, decide_true, Bool.true_and,
      show ¬ i + 1 < 1 by omega, decide_false, Bool.not_false, Nat.add_sub_cancel] at shifted
    exact shifted

/-- R200: a step loses nothing of the register. -/
theorem checkStep_injective (b : Bool) : Function.Injective fun reg => checkStep reg b := by
  intro first second same
  change checkStep first b = checkStep second b at same
  have top : first.msb = second.msb := by
    have low := congrArg (fun r => r.getLsbD 0) same
    simpa only [checkStep_getLsbD_zero, Bool.xor_right_inj] using low
  refine eq_of_msb_shiftLeft top ?_
  unfold checkStep at same
  rw [top] at same
  split at same
  · exact BitVec.xor_left_inj _ |>.1 same
  · exact same

/-- R200: the rest of a string carries a difference on. -/
theorem checkValue_from_injective (bits : List Bool) : Function.Injective fun reg => bits.foldl checkStep reg := by
  induction bits with
  | nil => exact fun _ _ same => same
  | cons b bits ih => exact fun _ _ same => checkStep_injective b (ih same)

/-- Settles O53: the one bit makes the registers differ, and every later step keeps them so. -/
theorem checkValueSeesEverySingleBit : Obligations.CheckValueSeesEverySingleBit := by
  intro before after b same
  rw [checkValue_append, checkValue_append] at same
  have register := checkValue_from_injective after same
  rw [checkStep_not] at register
  have pattern : (0#16) = 0x1253#16 := (BitVec.xor_right_inj _).1 ((BitVec.xor_zero).trans register)
  exact absurd pattern (by decide)

/-! ### Runs of equal levels (R197) -/

/-- A run of one level, closed by another level. -/
theorem headRun_replicate_append {x y : Bool} (other : x ≠ y) (m : Nat) (rest : List Bool) :
    headRun (List.replicate (m + 1) x ++ y :: rest) = m + 1 := by
  induction m with
  | zero => simp [headRun, other]
  | succ m ih =>
    rw [List.replicate_succ, List.replicate_succ] at *
    simp only [List.cons_append] at ih ⊢
    rw [headRun, if_pos rfl, ih]

/-- R197: five equal levels before another make no run of six. -/
theorem noRunOfSix_replicate_append {x y : Bool} (other : x ≠ y) {m : Nat} (short : m ≤ 5) (rest : List Bool) :
    noRunOfSix (List.replicate m x ++ y :: rest) = noRunOfSix (y :: rest) := by
  induction m with
  | zero => rfl
  | succ m ih =>
    have run := headRun_replicate_append other m rest
    rw [List.replicate_succ, List.cons_append] at run ⊢
    rw [noRunOfSix, run, ih (by omega), decide_eq_true (by omega), Bool.true_and]

/-- R197: a stuffed string and the levels of an end delimiter hold no run of six, up to the sixth recessive one. -/
theorem noRunOfSix_stuffAfter (bits : List Bool) (last : Bool) {run : Nat} (short : run ≤ 4) :
    noRunOfSix (List.replicate run last ++ (stuffAfter last run bits ++ (false :: List.replicate 5 true))) = true := by
  induction bits generalizing last run with
  | nil =>
    cases last with
    | true =>
      rw [stuffAfter, List.nil_append, noRunOfSix_replicate_append Bool.noConfusion (by omega)]
      decide
    | false =>
      have one : List.replicate run false ++ ([] ++ false :: List.replicate 5 true) =
          List.replicate (run + 1) false ++ true :: List.replicate 4 true := by
        rw [List.replicate_succ' (n := run), List.append_assoc]
        rfl
      rw [stuffAfter, one, noRunOfSix_replicate_append Bool.noConfusion (by omega)]
      decide
  | cons b bits ih =>
    unfold stuffAfter
    dsimp only
    by_cases same : b = last
    · subst same
      rw [if_pos rfl]
      have one (rest : List Bool) : List.replicate run b ++ b :: rest = List.replicate (run + 1) b ++ rest := by
        rw [List.replicate_succ', List.append_assoc]
        rfl
      by_cases full : run + 1 = 5
      · rw [if_pos full, List.cons_append, List.cons_append, one, noRunOfSix_replicate_append (by cases b <;> decide) (by omega)]
        exact ih (!b) (run := 1) (by omega)
      · rw [if_neg full, List.cons_append, one]
        exact ih b (by omega)
    · rw [if_neg same, if_neg (by decide), List.cons_append, noRunOfSix_replicate_append (Ne.symm same) (by omega)]
      exact ih b (run := 1) (by omega)

/-! ### The end of a frame (R197) -/

/-- R197: the content of the levels from the start bit to the recessive run after the end delimiter's dominant bit. -/
theorem contentOf_delimited (bits : List Bool) (n : Nat) : contentOf (bits ++ (false :: List.replicate n true)) = bits := by
  unfold contentOf
  rw [List.reverse_append, List.reverse_cons, List.reverse_replicate, List.append_assoc,
    List.dropWhile_append_of_pos (by simp)]
  simp

theorem Frame.levels_dropLast (f : Frame) : f.levels.dropLast = stuff f.content ++ (false :: List.replicate 6 true) := by
  rw [Frame.levels, List.dropLast_append_of_ne_nil (by simp)]
  rfl

theorem Frame.levels_endsAtRunOf (f : Frame) : endsAtRunOf true f.levels.dropLast = true := by
  have short : f.levels.dropLast.dropLast = stuff f.content ++ (false :: List.replicate 5 true) := by
    rw [Frame.levels_dropLast, List.dropLast_append_of_ne_nil (by simp)]
    rfl
  have run : noRunOfSix f.levels.dropLast.dropLast = true := by
    rw [short]
    exact noRunOfSix_stuffAfter f.content true (run := 0) (by omega)
  have split : f.levels.dropLast = (stuff f.content ++ [false]) ++ List.replicate 6 true := by
    rw [Frame.levels_dropLast, List.append_assoc]
    rfl
  unfold endsAtRunOf
  rw [run, Bool.true_and, Bool.and_eq_true, decide_eq_true_eq, decide_eq_true_eq, split]
  refine ⟨by simp, ?_⟩
  rw [List.length_append, List.length_replicate, Nat.add_sub_cancel, List.drop_left]

/-! ### The fields of a frame (R198, R199) -/

/-- What stands between a front and a back of a list. -/
theorem take_drop_between {α : Type} {front mid back : List α} {i n : Nat} (at_ : front.length = i) (long : mid.length = n) :
    ((front ++ (mid ++ back)).drop i).take n = mid := by
  rw [← at_, List.drop_left, ← long, List.take_left]

theorem byteBits_length (b : Byte) : (byteBits b).length = 8 := bitsOf_length 8 _

theorem flatMap_byteBits_length (bytes : List Byte) : (bytes.flatMap byteBits).length = 8 * bytes.length := by
  simp [List.length_flatMap, byteBits_length, Nat.mul_comm]

/-- R196: bytes read back from their bits. -/
theorem bytesOfBits_flatMap (bytes : List Byte) : bytesOfBits bytes.length (bytes.flatMap byteBits) = bytes := by
  induction bytes with
  | nil => rfl
  | cons b bytes ih =>
    have one : byteOf (natOf (byteBits b)) = b := by
      apply BitVec.eq_of_toNat_eq
      have := b.isLt
      simp only [byteOf, byteBits, natOf_bitsOf, BitVec.toNat_ofNat]
      omega
    rw [List.length_cons, bytesOfBits, List.flatMap_cons, List.take_left' (byteBits_length b),
      List.drop_left' (byteBits_length b), ih, one]

/-- R199: pairs of bytes read back. -/
theorem halvesOf_flatMap (fields : List Half) : halvesOf (fields.flatMap halfBytes) = fields := by
  induction fields with
  | nil => rfl
  | cons h fields ih =>
    change halfOf _ _ :: halvesOf (fields.flatMap halfBytes) = _
    rw [halfOf_halfBytes, ih]

theorem flatMap_halfBytes_length (fields : List Half) : (fields.flatMap halfBytes).length = 2 * fields.length := by
  simp [List.length_flatMap, Nat.mul_comm]

theorem memberCount_le (members : Half) : memberCount members ≤ 16 :=
  (List.length_filter_le _ _).trans (by simp)

theorem Body.bytes_length_lt {b : Body} (sendable : b.sendable = true) : b.bytes.length < 64 := by
  cases b with
  | snapHeader target count digest members inUse fp lastTaken =>
    simp only [Body.sendable, Bool.and_eq_true, decide_eq_true_eq] at sendable
    have := memberCount_le members
    simp only [Body.bytes, List.length_append, flatMap_halfBytes_length, halfBytes_length, List.length_cons, List.length_nil]
    omega
  | _ => simp [Body.bytes]

/-- R199: a record part reads back from its bytes. -/
theorem recordPartOf_bytes (r : RecordPart) :
    recordPartOf r.owner r.tag (byteOf (flagAt 0 r.zonesPresent + flagAt 1 r.held + flagAt 2 r.grantedPresent)) r.lo r.hi
      (BitVec.ofNat 8 (r.units.toNat / 256)) (BitVec.ofNat 8 (r.units.toNat % 256))
      (BitVec.ofNat 8 (r.admittedAt.toNat / 256)) (BitVec.ofNat 8 (r.admittedAt.toNat % 256))
      (BitVec.ofNat 8 (r.grantedAt.toNat / 256)) (BitVec.ofNat 8 (r.grantedAt.toNat % 256)) = r := by
  have flags := getLsbD_sixFlags r.zonesPresent r.held r.grantedPresent false false false
  have flag (k : Nat) : (byteOf (flagAt 0 r.zonesPresent + flagAt 1 r.held + flagAt 2 r.grantedPresent)).toNat.testBit k =
      [r.zonesPresent, r.held, r.grantedPresent, false, false, false].getD k false :=
    (BitVec.testBit_toNat _).trans (flags k)
  simp only [recordPartOf, halfOf_halfBytes, flag]
  rfl

/-- R198, R199: a body reads back from class, kind code and bytes. -/
theorem bodyOf_bytes {b : Body} (sendable : b.sendable = true) : bodyOf b.kind.cls b.kind.code b.bytes = some b := by
  cases b with
  | found d => exact congrArg (some ∘ Body.found) (halfOf_halfBytes d)
  | join d => exact congrArg (some ∘ Body.join) (halfOf_halfBytes d)
  | beat fp => exact congrArg (some ∘ Body.beat) (halfOf_halfBytes fp)
  | leave | release tag | withdraw tag | evict target | syncreq => rfl
  | claim tag zp lo hi units =>
    have flag : (byteOf (flagAt 0 zp)).toNat.testBit 0 = zp := by cases zp <;> rfl
    change some (Body.claim tag ((byteOf (flagAt 0 zp)).toNat.testBit 0) lo hi (halfOf _ _)) = _
    rw [flag, halfOf_halfBytes]
  | snapHeader target count digest members inUse fp lastTaken =>
    simp only [Body.sendable, Bool.and_eq_true, decide_eq_true_eq] at sendable
    obtain ⟨⟨some, few⟩, counted⟩ := sendable
    have long : (lastTaken.flatMap halfBytes).length =
        2 * memberCount (halfOf (BitVec.ofNat 8 (members.toNat / 256)) (BitVec.ofNat 8 (members.toNat % 256))) := by
      rw [flatMap_halfBytes_length, counted, halfOf_halfBytes]
    change snapBody (target :: 0#8 :: count :: _ :: _ :: _ :: _ :: _ :: _ :: _ :: _ :: lastTaken.flatMap halfBytes) = _
    rw [snapBody, if_pos ⟨some, few, some⟩, if_pos (show (0#8) = 0 from rfl)]
    rw [if_pos long, halvesOf_flatMap, halfOf_halfBytes, halfOf_halfBytes, halfOf_halfBytes, halfOf_halfBytes]
  | snapRecord target index count r =>
    simp only [Body.sendable, Bool.and_eq_true, decide_eq_true_eq] at sendable
    obtain ⟨⟨some, few⟩, below⟩ := sendable
    have later : index ≠ 0 := by
      rintro rfl
      exact absurd some (by decide)
    have part := recordPartOf_bytes r
    change snapBody [target, index, count, r.owner, r.tag, _, r.lo, r.hi, _, _, _, _, _, _] = _
    rw [snapBody, if_pos ⟨by omega, few, below⟩, if_neg later]
    dsimp only
    rw [part]

theorem natOf_halfBits (h : Half) : natOf (halfBits h) = h.toNat := by
  have := h.isLt
  rw [halfBits, natOf_bitsOf, Nat.mod_eq_of_lt this]

theorem halfBits_length (h : Half) : (halfBits h).length = 16 := bitsOf_length 16 _

theorem Frame.covered_length (f : Frame) : f.covered.length = 32 + 8 * f.body.bytes.length := by
  simp only [Frame.covered, List.length_append, bitsOf_length, halfBits_length, flatMap_byteBits_length]

section Covered

variable (f : Frame)

/-- R53: the fields of the covered content, in order. -/
theorem Frame.covered_eq :
    f.covered = bitsOf 2 f.body.kind.cls ++ (bitsOf 4 f.sender.val ++ (bitsOf 4 f.body.kind.code ++ (halfBits f.seq ++
      (bitsOf 6 f.body.bytes.length ++ f.body.bytes.flatMap byteBits)))) := by
  simp only [Frame.covered, List.append_assoc]

theorem Frame.covered_class : natOf (f.covered.take 2) = f.body.kind.cls := by
  rw [f.covered_eq, List.take_left' (bitsOf_length 2 _), natOf_bitsOf]
  cases f.body.kind <;> rfl

theorem Frame.covered_sender : natOf ((f.covered.drop 2).take 4) = f.sender.val := by
  rw [f.covered_eq, take_drop_between (bitsOf_length 2 _) (bitsOf_length 4 _), natOf_bitsOf]
  exact Nat.mod_eq_of_lt f.sender.isLt

theorem Frame.covered_kind : natOf ((f.covered.drop 6).take 4) = f.body.kind.code := by
  rw [f.covered_eq, ← List.append_assoc, take_drop_between (by simp) (bitsOf_length 4 _), natOf_bitsOf]
  cases f.body.kind <;> rfl

theorem Frame.covered_seq : natOf ((f.covered.drop 10).take 16) = f.seq.toNat := by
  rw [f.covered_eq, ← List.append_assoc, ← List.append_assoc, take_drop_between (by simp) (halfBits_length _),
    natOf_halfBits]

theorem Frame.covered_body : f.covered.drop 32 = f.body.bytes.flatMap byteBits := by
  rw [Frame.covered, List.drop_left']
  simp [halfBits_length]

end Covered

section Content

variable (f : Frame)

theorem Frame.content_bodyLength (short : f.body.bytes.length < 64) :
    natOf ((f.content.drop 27).take 6) = f.body.bytes.length := by
  have split : f.content = (false :: (bitsOf 2 f.body.kind.cls ++ (bitsOf 4 f.sender.val ++ (bitsOf 4 f.body.kind.code ++
      halfBits f.seq)))) ++ (bitsOf 6 f.body.bytes.length ++
        (f.body.bytes.flatMap byteBits ++ halfBits (checkValue f.covered))) := by
    rw [Frame.content, f.covered_eq]
    simp only [List.append_assoc, List.cons_append]
  rw [split, take_drop_between (by simp [halfBits_length]) (bitsOf_length 6 _), natOf_bitsOf]
  exact Nat.mod_eq_of_lt short

theorem Frame.content_covered : (f.content.drop 1).take (32 + 8 * f.body.bytes.length) = f.covered :=
  take_drop_between (front := [false]) rfl f.covered_length

theorem Frame.content_check :
    (f.content.drop (33 + 8 * f.body.bytes.length)).take 16 = halfBits (checkValue f.covered) := by
  have length : (false :: f.covered).length = 33 + 8 * f.body.bytes.length := by
    rw [List.length_cons, f.covered_length]
    omega
  rw [Frame.content, ← List.cons_append, List.drop_left' length, List.take_of_length_le (by rw [halfBits_length])]

theorem Frame.content_length : f.content.length = 49 + 8 * f.body.bytes.length := by
  rw [Frame.content, List.length_cons, List.length_append, f.covered_length, halfBits_length]
  omega

end Content

/-- R57, R197, R198: the fields of a frame's content, read back by their places. -/
theorem classify_content {f : Frame} (sendable : f.body.sendable = true) : classify f.content = .good f := by
  have whole : ¬ (f.content.length < 33 ∨ f.content.length ≠ 49 + 8 * f.body.bytes.length ∨
      (checkValue f.covered).toNat ≠ natOf (halfBits (checkValue f.covered))) := by
    rw [f.content_length, natOf_halfBits]
    omega
  unfold classify
  dsimp only
  rw [f.content_bodyLength (Body.bytes_length_lt sendable), f.content_covered, f.content_check, if_neg whole,
    f.covered_class, f.covered_sender, f.covered_kind, f.covered_seq, f.covered_body, bytesOfBits_flatMap,
    bodyOf_bytes sendable]
  simp

/-- R197, R198: the content between the start bit and the delimiter makes the frame, however long the delimiter is heard. -/
theorem receive_delimited {f : Frame} (sendable : f.body.sendable = true) (n : Nat) :
    receive (stuff f.content ++ (false :: List.replicate n true)) = .good f := by
  rw [receive, contentOf_delimited, unstuff_stuff, classify_content sendable]

/-- Settles O52. -/
theorem frameLevelsReadBack : Obligations.FrameLevelsReadBack := fun f sendable =>
  ⟨receive_delimited sendable 7, f.levels_dropLast ▸ receive_delimited sendable 6, f.levels_endsAtRunOf⟩

end Sys2Proof.Machine

/-! # First come, first served (R16 to R18) -/

namespace Sys2Proof.Machine

/-! ### What one visit leaves -/

/-- R17, R18: the record that a visit leaves in place. -/
def Walk.leaves (w : Walk) (cap : Nat) (seq : Seq) (r : Record) : Record :=
  if r.state = .waiting ∧ w.zonesFree r = true ∧ w.unitsFree cap r = true then r.granted seq else r

section Visit

variable (cap : Nat) (seq : Seq) (w : Walk) (r : Record)

theorem Walk.visit_done : (w.visit cap seq r).done = w.done ++ [w.leaves cap seq r] := by
  unfold Walk.leaves
  obtain ⟨held, visit⟩ | ⟨waiting, zones, units, visit⟩ | ⟨waiting, blocked, visit⟩ := w.visit_cases cap seq r
  · rw [visit, if_neg (by simp [held])]
  · rw [visit, if_pos ⟨waiting, zones, units⟩]
    rfl
  · rw [visit, if_neg (by rintro ⟨_, zones, units⟩; simp [zones, units] at blocked)]
    rfl

/-- A later point of a walk: what is held stays held by whom it is, what is blocked stays blocked, and the pool in use does
not shrink. -/
structure Walk.Before (w u : Walk) : Prop where
  blocked : ∀ g ∈ w.blocked, g ∈ u.blocked
  poolWait : w.poolWait = true → u.poolWait = true
  zone : ∀ z : Fin 32, w.zoneMap[z] ≠ none → u.zoneMap[z] = w.zoneMap[z]
  inUse : w.inUse ≤ u.inUse

theorem Walk.Before.refl : w.Before w := ⟨fun _ => id, id, fun _ _ => rfl, le_rfl⟩

theorem Walk.Before.trans {w u v : Walk} (first : w.Before u) (second : u.Before v) : w.Before v :=
  ⟨fun g => second.blocked g ∘ first.blocked g, second.poolWait ∘ first.poolWait,
    fun z held => (second.zone z (first.zone z held ▸ held)).trans (first.zone z held), first.inUse.trans second.inUse⟩

theorem Walk.visit_before : w.Before (w.visit cap seq r) := by
  obtain ⟨_, visit⟩ | ⟨_, zones, _, visit⟩ | ⟨_, _, visit⟩ := w.visit_cases cap seq r
  · rw [visit]
    exact ⟨fun _ => id, id, fun _ _ => rfl, le_rfl⟩
  · rw [visit]
    refine ⟨fun _ => id, id, fun z held => ?_, Nat.le_add_right _ _⟩
    change (markZones w.zoneMap r.zones (r.owner, r.tag))[z] = _
    rw [markZones_get, if_neg fun covers => held ((w.zonesFree_iff r).1 zones z ?_).1]
    unfold Record.covers
    cases range : r.zones with
    | none => simp [range] at covers
    | some g => simpa [range] using covers
  · rw [visit]
    exact ⟨fun g => List.mem_append_left _, fun waits => by simp [Walk.passOver, waits], fun _ _ => rfl, le_rfl⟩

theorem Walk.foldl_before (rest : List Record) : w.Before (rest.foldl (Walk.visit cap seq) w) := by
  induction rest generalizing w with
  | nil => exact .refl w
  | cons r rest ih => exact (w.visit_before cap seq r).trans (ih _)

end Visit

/-! ### The walk of a table, index by index -/

/-- R16, R17: the walk before it visits the record at an index. -/
def Table.walkAt (t : Table) (cap : Nat) (seq : Seq) (i : Nat) : Walk :=
  (t.records.take i).foldl (Walk.visit cap seq) t.walkStart

section WalkAt

variable (t : Table) (cap : Nat) (seq : Seq)

theorem Table.walkAt_succ {i : Nat} {r : Record} (at_ : t.records[i]? = some r) :
    t.walkAt cap seq (i + 1) = (t.walkAt cap seq i).visit cap seq r := by
  rw [Table.walkAt, List.take_add_one, at_, walk_append]
  rfl

theorem Table.walkAt_before {i j : Nat} (le : i ≤ j) : (t.walkAt cap seq i).Before (t.walkAt cap seq j) := by
  have split : t.records.take j = t.records.take i ++ (t.records.take j).drop i := by
    conv_lhs => rw [← List.take_append_drop i (t.records.take j), List.take_take, Nat.min_eq_left le]
  unfold Table.walkAt
  rw [split, walk_append]
  exact Walk.foldl_before cap seq _ _

/-- The whole walk. -/
theorem Table.evaluate_eq :
    t.evaluate cap seq =
      ({ records := (t.walkAt cap seq t.records.length).done, zoneMap := (t.walkAt cap seq t.records.length).zoneMap
         inUse := (t.walkAt cap seq t.records.length).inUse }, (t.walkAt cap seq t.records.length).grants) := by
  rw [Table.walkAt, List.take_length]
  rfl

theorem Table.walkAt_done (i : Nat) (within : i ≤ t.records.length) :
    (t.walkAt cap seq i).done = (t.records.mapIdx fun k r => (t.walkAt cap seq k).leaves cap seq r).take i := by
  induction i with
  | zero => rfl
  | succ i ih =>
    have at_ : t.records[i]? = some t.records[i] := List.getElem?_eq_getElem within
    rw [t.walkAt_succ cap seq at_, Walk.visit_done, ih (by omega), List.take_add_one]
    simp [at_]

/-- R16: the evaluated table holds at each index what the visit left there. -/
theorem Table.evaluate_get {i : Nat} {r : Record} (at_ : t.records[i]? = some r) :
    (t.evaluate cap seq).1.records[i]? = some ((t.walkAt cap seq i).leaves cap seq r) := by
  rw [Table.evaluate_eq, t.walkAt_done cap seq _ le_rfl, List.take_of_length_le (by simp)]
  simp [at_]

/-- R17: a WAITING record is left as it is exactly when a zone or the pool stands against it. -/
theorem Table.left_iff {i : Nat} {r : Record} (at_ : t.records[i]? = some r) (waiting : r.state = .waiting) :
    (t.evaluate cap seq).1.records[i]? = some r ↔
      (t.walkAt cap seq i).zonesFree r = false ∨ (t.walkAt cap seq i).unitsFree cap r = false := by
  rw [t.evaluate_get cap seq at_, Option.some.injEq, Walk.leaves]
  have moved : r.granted seq ≠ r := fun same => by simpa [Record.granted, waiting] using congrArg Record.state same
  cases zones : (t.walkAt cap seq i).zonesFree r <;> cases units : (t.walkAt cap seq i).unitsFree cap r <;>
    simp [waiting, moved]

/-- R17, R18: a WAITING record is granted exactly when its zones and its units are free. -/
theorem Table.granted_iff {i : Nat} {r : Record} (at_ : t.records[i]? = some r) (waiting : r.state = .waiting) :
    (t.evaluate cap seq).1.records[i]? = some (r.granted seq) ↔
      (t.walkAt cap seq i).zonesFree r = true ∧ (t.walkAt cap seq i).unitsFree cap r = true := by
  rw [t.evaluate_get cap seq at_, Option.some.injEq, Walk.leaves]
  have moved : r ≠ r.granted seq := fun same => by simpa [Record.granted, waiting] using congrArg Record.state same
  cases zones : (t.walkAt cap seq i).zonesFree r <;> cases units : (t.walkAt cap seq i).unitsFree cap r <;>
    simp [waiting, moved]

/-- R17: what stands against later records once a record is left waiting. -/
theorem Table.blocked_of_left {i j : Nat} {r : Record} (before : i < j) (at_ : t.records[i]? = some r)
    (waiting : r.state = .waiting) (left : (t.evaluate cap seq).1.records[i]? = some r) :
    (∀ g, r.zones = some g → g ∈ (t.walkAt cap seq j).blocked) ∧
      (0 < r.units → (t.walkAt cap seq j).poolWait = true) := by
  have against := (t.left_iff cap seq at_ waiting).1 left
  have passed : (t.walkAt cap seq i).visit cap seq r = (t.walkAt cap seq i).passOver r := by
    obtain ⟨held, _⟩ | ⟨_, zones, units, _⟩ | ⟨_, _, visit⟩ := (t.walkAt cap seq i).visit_cases cap seq r
    · simp [waiting] at held
    · simp [zones, units] at against
    · exact visit
  have later := t.walkAt_before cap seq (show i + 1 ≤ j from before)
  rw [t.walkAt_succ cap seq at_, passed] at later
  exact ⟨fun g range => later.blocked g (by simp [Walk.passOver, range]),
    fun wants => later.poolWait (by simp [Walk.passOver, wants])⟩

/-- R18: what a granted record covers is held for every later record. -/
theorem Table.held_of_granted {i j : Nat} {r : Record} (before : i < j) (at_ : t.records[i]? = some r)
    (waiting : r.state = .waiting) (granted : (t.evaluate cap seq).1.records[i]? = some (r.granted seq)) (z : Fin 32)
    (covers : r.covers z.val = true) : (t.walkAt cap seq j).zoneMap[z] ≠ none := by
  obtain ⟨zones, units⟩ := (t.granted_iff cap seq at_ waiting).1 granted
  have taken : (t.walkAt cap seq i).visit cap seq r = (t.walkAt cap seq i).grant seq r := by
    obtain ⟨held, _⟩ | ⟨_, _, _, visit⟩ | ⟨_, against, _⟩ := (t.walkAt cap seq i).visit_cases cap seq r
    · simp [waiting] at held
    · exact visit
    · simp [zones, units] at against
  have later := t.walkAt_before cap seq (show i + 1 ≤ j from before)
  rw [t.walkAt_succ cap seq at_, taken] at later
  have marked : ((t.walkAt cap seq i).grant seq r).zoneMap[z] = some (r.owner, r.tag) := by
    change (markZones _ r.zones (r.owner, r.tag))[z] = _
    rw [markZones_get, if_pos]
    cases range : r.zones <;> simp [Record.covers, range] at covers ⊢
    exact covers
  rw [later.zone z (by simp [marked]), marked]
  simp

/-- R17: what is blocked at a point of the walk, an earlier record left waiting blocks. -/
theorem Table.left_of_blocked (j : Nat) (within : j ≤ t.records.length) :
    (∀ g ∈ (t.walkAt cap seq j).blocked, ∃ (i : Nat) (a : Record), i < j ∧ t.records[i]? = some a ∧ a.state = .waiting ∧
        (t.evaluate cap seq).1.records[i]? = some a ∧ a.zones = some g) ∧
      ((t.walkAt cap seq j).poolWait = true → ∃ (i : Nat) (a : Record), i < j ∧ t.records[i]? = some a ∧ a.state = .waiting ∧
        (t.evaluate cap seq).1.records[i]? = some a ∧ 0 < a.units) := by
  induction j with
  | zero => exact ⟨fun g none_ => by simp [Table.walkAt, Table.walkStart] at none_,
      fun waits => by simp [Table.walkAt, Table.walkStart] at waits⟩
  | succ j ih =>
    have at_ : t.records[j]? = some t.records[j] := List.getElem?_eq_getElem within
    obtain ⟨blocked, pool⟩ := ih (by omega)
    rw [t.walkAt_succ cap seq at_]
    obtain ⟨_, visit⟩ | ⟨_, _, _, visit⟩ | ⟨waiting, against, visit⟩ := (t.walkAt cap seq j).visit_cases cap seq t.records[j]
    case' inr.inr =>
      have left := (t.left_iff cap seq at_ waiting).2 against
      rw [visit]
      refine ⟨fun g mem => ?_, fun waits => ?_⟩
      · obtain earlier | here := List.mem_append.1 mem
        · obtain ⟨i, a, lt, rest⟩ := blocked g earlier
          exact ⟨i, a, by omega, rest⟩
        · exact ⟨j, _, by omega, at_, waiting, left, by simpa using here⟩
      · obtain earlier | here := Bool.or_eq_true_iff.1 waits
        · obtain ⟨i, a, lt, rest⟩ := pool earlier
          exact ⟨i, a, by omega, rest⟩
        · exact ⟨j, _, by omega, at_, waiting, left, by simpa using here⟩
    all_goals
      rw [visit]
      refine ⟨fun g mem => ?_, fun waits => ?_⟩
      · obtain ⟨i, a, lt, rest⟩ := blocked g mem
        exact ⟨i, a, by omega, rest⟩
      · obtain ⟨i, a, lt, rest⟩ := pool waits
        exact ⟨i, a, by omega, rest⟩

end WalkAt

/-- R17: a walk that starts within the capacity ends within it. -/
theorem Walk.foldl_inUse_le (cap : Nat) (seq : Seq) (rest : List Record) (w : Walk) (fits : w.inUse ≤ cap) :
    (rest.foldl (Walk.visit cap seq) w).inUse ≤ cap := by
  induction rest generalizing w with
  | nil => exact fits
  | cons r rest ih =>
    refine ih _ ?_
    obtain ⟨_, visit⟩ | ⟨_, _, units, visit⟩ | ⟨_, _, visit⟩ := w.visit_cases cap seq r <;> rw [visit]
    · exact fits
    · change w.inUse + r.units ≤ cap
      obtain none_ | ⟨_, fits'⟩ := (w.unitsFree_iff cap r).1 units <;> omega
    · exact fits

/-- Settles O50: each rule is a fact about the walk as it stands before one index, carried on by `Walk.Before`. -/
theorem grantEvaluationNeverOvertakes : Obligations.GrantEvaluationNeverOvertakes := by
  intro t cap seq
  dsimp only
  have whole (j : Nat) (within : j ≤ t.records.length) := t.walkAt_before cap seq within
  refine ⟨?_, ?_, ?_, ?_, ?_, ?_, ?_, ?_⟩
  · rw [Table.evaluate_eq, Table.walkAt, List.take_length]
    have lengths := congrArg List.length (walk_map (fun _ => ()) (fun _ _ => rfl) cap seq t.records t.walkStart)
    simpa [Table.walkStart] using lengths
  · intro i r at_ held
    rw [t.evaluate_get cap seq at_, Walk.leaves, if_neg (by simp [held])]
  · intro i r at_ waiting
    by_cases free : (t.walkAt cap seq i).zonesFree r = true ∧ (t.walkAt cap seq i).unitsFree cap r = true
    · exact .inr ⟨at_, waiting, (t.granted_iff cap seq at_ waiting).2 free⟩
    · refine .inl ⟨at_, waiting, (t.left_iff cap seq at_ waiting).2 ?_⟩
      rwa [not_and_or, Bool.not_eq_true, Bool.not_eq_true] at free
  · rintro i j a b before ⟨atA, waitsA, left⟩ ⟨atB, waitsB, granted⟩
    obtain ⟨zones, units⟩ := (t.granted_iff cap seq atB waitsB).1 granted
    obtain ⟨blocked, pool⟩ := t.blocked_of_left cap seq before atA waitsA left
    constructor
    · rintro z ⟨coversA, coversB⟩
      obtain ⟨g, range, covers⟩ : ∃ g, a.zones = some g ∧ g.covers z.val = true := by
        cases range : a.zones <;> simp_all [Record.covers]
      have := (((t.walkAt cap seq j).zonesFree_iff b).1 zones z coversB).2 g (blocked g range)
      simp [covers] at this
    · intro wants
      obtain none_ | ⟨clear, _⟩ := ((t.walkAt cap seq j).unitsFree_iff cap b).1 units
      · exact none_
      · simp [pool wants] at clear
  · rintro j b ⟨atB, waitsB, left⟩
    obtain ⟨within, _⟩ := List.getElem?_eq_some_iff.1 atB
    have later := whole j within.le
    obtain ⟨blocked, pool⟩ := t.left_of_blocked cap seq j within.le
    rw [Table.evaluate_eq]
    dsimp only
    obtain zones | units := (t.left_iff cap seq atB waitsB).1 left
    · have against := mt ((t.walkAt cap seq j).zonesFree_iff b).2 (by simp [zones])
      push Not at against
      obtain ⟨z, covers, against⟩ := against
      by_cases held : (t.walkAt cap seq j).zoneMap[z] = none
      · obtain ⟨g, mem, coversG⟩ := against held
        obtain ⟨i, a, lt, at_, waiting, leftA, range⟩ := blocked g mem
        rw [Table.evaluate_eq] at leftA
        exact .inr (.inl ⟨i, a, lt, ⟨at_, waiting, leftA⟩, .inl ⟨z, by simpa [Record.covers, range] using coversG, covers⟩⟩)
      · exact .inl ⟨z, covers, by rw [later.zone z held]; exact held⟩
    · have against := mt ((t.walkAt cap seq j).unitsFree_iff cap b).2 (by simp [units])
      push Not at against
      obtain ⟨wants, against⟩ := against
      by_cases waits : (t.walkAt cap seq j).poolWait = true
      · obtain ⟨i, a, lt, at_, waiting, leftA, wantsA⟩ := pool waits
        rw [Table.evaluate_eq] at leftA
        exact .inr (.inl ⟨i, a, lt, ⟨at_, waiting, leftA⟩, .inr ⟨wantsA, by omega⟩⟩)
      · have := against (by simpa using waits)
        have := later.inUse
        exact .inr (.inr ⟨by omega, by omega⟩)
  · rintro i j a b before ⟨atA, waitsA, grantedA⟩ ⟨atB, waitsB, grantedB⟩ z ⟨coversA, coversB⟩
    obtain ⟨zones, _⟩ := (t.granted_iff cap seq atB waitsB).1 grantedB
    exact t.held_of_granted cap seq before atA waitsA grantedA z coversA
      (((t.walkAt cap seq j).zonesFree_iff b).1 zones z coversB).1
  · intro z held
    rw [Table.evaluate_eq]
    exact (whole 0 (Nat.zero_le _)).zone z held
  · exact Walk.foldl_inUse_le cap seq t.records t.walkStart

end Sys2Proof.Machine

/-! # Removals at the table (R11, R19 to R23) -/

namespace Sys2Proof.Machine

/-- R3, R5, R6, R16: an application removes the records that `gone` names, in their order, frees their zones, takes their
units from the pool in use, and evaluates once. -/
def Table.Removes (t : Table) (cfg : Cfg) (f : Frame) (out : Table × Report) (gone : Record → Bool)
    (tag : Option TagOutcome) : Prop :=
  ∃ u : Table, u.records = t.records.filter (fun r => !gone r) ∧
    (∀ z : Fin 32, (∃ r ∈ t.records.filter gone, r.state = .held ∧ r.covers z.val = true) → u.zoneMap[z] = none) ∧
    (∀ z : Fin 32, (¬ ∃ r ∈ t.records.filter gone, r.state = .held ∧ r.covers z.val = true) → u.zoneMap[z] = t.zoneMap[z]) ∧
    u.inUse = t.inUse - (((t.records.filter gone).filter fun r => decide (r.state = .held)).map Record.units).sum ∧
    out = ((u.evaluate cfg.poolCapacity f.seq).1,
      { tag := tag, removed := t.records.filter gone, grants := (u.evaluate cfg.poolCapacity f.seq).2 })

section Removal

variable (t : Table) (cfg : Cfg) (f : Frame)

theorem Table.removes_of_mem {gone : Record → Bool} (tag : Option TagOutcome)
    (some_ : ∃ r ∈ t.records, gone r = true) :
    t.Removes cfg f (t.removeAndEvaluate cfg.poolCapacity f.seq gone tag) gone tag := by
  have freed (z : Fin 32) : heldCovers (t.records.filter gone) z.val = true ↔
      ∃ r ∈ t.records.filter gone, r.state = .held ∧ r.covers z.val = true := by
    simp [heldCovers, and_assoc]
  obtain ⟨none_, _⟩ | ⟨_, removed⟩ := t.removeAndEvaluate_cases cfg.poolCapacity f.seq gone tag
  · obtain ⟨r, mem, named⟩ := some_
    exact absurd named (List.filter_eq_nil_iff.1 none_ r mem)
  · exact ⟨(t.remove gone).1, rfl, fun z covers => by rw [t.remove_zone, if_pos ((freed z).2 covers)],
      fun z covers => by rw [t.remove_zone, if_neg (mt (freed z).1 covers)], rfl, removed⟩

theorem Table.removeAndEvaluate_of_none {gone : Record → Bool} (cap : Nat) (seq : Seq) (tag : Option TagOutcome)
    (none_ : ∀ r ∈ t.records, gone r = false) : t.removeAndEvaluate cap seq gone tag = (t, { tag := tag }) := by
  obtain ⟨_, same⟩ | ⟨some_, _⟩ := t.removeAndEvaluate_cases cap seq gone tag
  · exact same
  · exact absurd (List.filter_eq_nil_iff.2 fun r mem => by simp [none_ r mem]) some_

/-- R21 to R23: every record of one owner is removed, or the owner has none and the table stays. -/
theorem Table.removeAllOf (x : StationNo) :
    let out := t.removeAndEvaluate cfg.poolCapacity f.seq (fun r => decide (r.owner = x)) none
    ((∃ r ∈ t.records, r.owner = x) → t.Removes cfg f out (fun r => decide (r.owner = x)) none) ∧
      ((∀ r ∈ t.records, r.owner ≠ x) → out = (t, { tag := none })) :=
  ⟨fun ⟨r, mem, owner⟩ => t.removes_of_mem cfg f none ⟨r, mem, by simpa using owner⟩,
    fun others => t.removeAndEvaluate_of_none _ _ _ fun r mem => by simpa using others r mem⟩

end Removal

/-- Settles O49: the body of the frame names the records, `Table.removes_of_mem` says what their removal does. -/
theorem removalsActByTheirRules : Obligations.RemovalsActByTheirRules := by
  intro t cfg isMember f
  dsimp only
  have named (tag : Byte) : (fun r : Record => r.isOf f.sender tag.toNat) =
      fun r => decide (r.owner = f.sender ∧ r.tag.val = tag.toNat) := by
    funext r
    simp [Record.isOf, Bool.decide_and]
  have found (tag : Byte) : (t.find f.sender tag.toNat).isSome = true ↔
      ∃ r ∈ t.records, decide (r.owner = f.sender ∧ r.tag.val = tag.toNat) = true := by
    rw [t.find_isSome_iff]
    simp
  refine ⟨fun tag body => ⟨fun present => ?_, fun absent => ?_⟩, fun tag body => ⟨fun absent => ?_, ?_⟩, fun body => ?_,
    fun target body => ⟨fun x is member other => ?_, fun out => ?_⟩, fun body => ?_⟩
  · simp only [Table.apply, body, named]
    rw [if_pos ((found tag).2 present)]
    exact t.removes_of_mem cfg f _ present
  · simp only [Table.apply, body, named]
    rw [if_neg (by rw [found]; rintro ⟨r, mem, named⟩; rw [absent r mem] at named; cases named)]
    exact t.removeAndEvaluate_of_none _ _ _ absent
  · have gone : t.find f.sender tag.toNat = none := by
      rw [← Option.not_isSome_iff_eq_none, found]
      rintro ⟨r, mem, named⟩
      rw [absent r mem] at named
      cases named
    simp [Table.apply, body, gone]
  · intro before r after records first is
    have here : t.find f.sender tag.toNat = some r := by
      unfold Table.find
      rw [named, records, List.find?_append, List.find?_eq_none.2 fun q mem => by simpa using first q mem]
      simp only [List.find?_cons, is, Option.none_or]
    refine ⟨fun waiting => ?_, fun held => by simp [Table.apply, body, here, held]⟩
    simp only [Table.apply, body, here, waiting, named]
    exact t.removes_of_mem cfg f _ ⟨r, by simp [records], is⟩
  · have all := t.removeAllOf cfg f f.sender
    obtain body | ⟨d, body⟩ := body <;>
      refine ⟨fun member => ?_, fun out => by simp [Table.apply, body, out]⟩
    all_goals
      have removal : t.apply cfg isMember f =
          t.removeAndEvaluate cfg.poolCapacity f.seq (fun r => decide (r.owner = f.sender)) none := by
        simp [Table.apply, body, member]
      rw [removal]
      exact all
  · have small : target.toNat < 16 := is ▸ x.isLt
    have same : (⟨target.toNat, small⟩ : StationNo) = x := Fin.ext is.symm
    have all := t.removeAllOf cfg f x
    have removal : t.apply cfg isMember f =
        t.removeAndEvaluate cfg.poolCapacity f.seq (fun r => decide (r.owner = x)) none := by
      simp [Table.apply, body, small, same, member, other]
    rw [removal]
    exact all
  · by_cases small : target.toNat < 16
    · obtain nonmember | sender := out ⟨target.toNat, small⟩ rfl
      · simp [Table.apply, body, small, nonmember]
      · simp [Table.apply, body, small, ← sender]
    · simp [Table.apply, body, small]
  · cases kind : f.body <;> rw [kind] at body <;> simp [Body.kind] at body <;> simp [Table.apply, kind]

end Sys2Proof.Machine

/-! # The line: an attempt starts, a frame ends, a part is sent (R40, R60 to R62, R123) -/

namespace Sys2Proof.Machine

/-! ### ATTEMPT_START -/

/-- R30, R62: every frame but a SNAP part takes the number the station expects, or the one after the last it heard. -/
theorem State.fillSeq_eq (s : State) (src : Source) :
    s.fillSeq src = match src with
      | .snap _ => (s.cu.serve.map Serve.base).getD 0
      | _ => if s.order.step = .behind then s.order.lastHeard.getD 0 + 1 else s.order.expected := by
  cases src <;> cases step : s.order.step <;> simp [State.fillSeq, step]

theorem Order.countAttempt_eq (o : Order) (src : Source) :
    o.countAttempt src =
      { o with
        ownRun := if decide (o.step = .inStep ∧ o.ownRunOf ≠ some src) then 0 else o.ownRun
        ownRunOf := if decide (o.step = .inStep ∧ o.ownRunOf ≠ some src) then some src else o.ownRunOf } := by
  by_cases fresh : o.step = .inStep ∧ o.ownRunOf ≠ some src <;> simp [Order.countAttempt, fresh]

section Starts

variable {s : State} {bits : Nat} (on : s.power = .on) (quiet : s.line.view = .quiet) (idle : s.line.tx = .idle)
  (gap : 11 ≤ s.line.quietBits + bits)

include on quiet

theorem exec_attemptStart_of_quiet : exec (.attemptStart bits) s = .next
    (match s.mayOffer bits, s.nextAttempt with
      | true, some a => s.startAttempt a
      | _, _ => { s with line := { s.line with quietBits := s.line.counted bits } }) := by
  change execAttemptStart bits s = _
  rw [execAttemptStart, happening_of_enabled (by simp [State.isOn, on, quiet])] <;> rfl

include idle gap

theorem exec_attemptStart_of_gap : exec (.attemptStart bits) s = .next
    (match s.nextAttempt with
      | some a => s.startAttempt a
      | none => { s with line := { s.line with quietBits := 11 } }) := by
  have counted : s.line.counted bits = 11 := by simp [LineIf.counted, Config.idleGap, gap]
  have may : s.mayOffer bits = true := by simp [State.mayOffer, quiet, idle, counted, Config.idleGap]
  rw [exec_attemptStart_of_quiet on quiet, may, counted]
  cases s.nextAttempt <;> rfl

end Starts

/-- R199: the part that a serve is at. -/
theorem partBody_record {v : Serve} {c : Capture} {b : Body} (body : partBody v c = some b) (later : v.index ≠ 0) :
    ∃ r, c.records[v.index - 1]? = some r ∧
      b = .snapRecord (byteOf v.requester.val) (byteOf v.index) (byteOf v.count) r.toPart := by
  obtain ⟨r, record, rfl⟩ := Option.map_eq_some_iff.1 ((if_neg later).symm.trans body)
  exact ⟨r, record, rfl⟩

theorem partBody_header {v : Serve} {c : Capture} {b : Body} (body : partBody v c = some b) (first : v.index = 0) :
    b = .snapHeader (byteOf v.requester.val) (byteOf v.count) (c.digest.getD 0) c.members (BitVec.ofNat 16 c.inUse)
      c.fingerprint c.lastTaken :=
  (Option.some.inj ((if_pos first).symm.trans body)).symm

/-- Settles O29. -/
theorem attemptStartFixesACopy : Obligations.AttemptStartFixesACopy := by
  intro s bits on quiet idle gap me number
  refine ⟨fun nothing => ?_, fun src b chosen body => ⟨?_, ?_, ?_, ?_, ?_, ?_, ?_, ?_, ?_⟩⟩
  · have none_ : s.nextAttempt = none := by simp [State.nextAttempt, number, nothing]
    rw [exec_attemptStart_of_gap on quiet idle gap, none_]
  · have next : s.nextAttempt = some { source := src, frame := { sender := me, seq := s.fillSeq src, body := b } } := by
      simp [State.nextAttempt, number, chosen, body]
    rw [exec_attemptStart_of_gap on quiet idle gap, next, State.fillSeq_eq]
    dsimp only [State.startAttempt]
    rw [Order.countAttempt_eq] <;> rfl
  · rintro rfl; exact (Option.some.inj body).symm
  · rintro x rfl; exact (Option.some.inj body).symm
  · rintro rfl; exact (Option.some.inj body).symm
  · rintro rfl; exact (Option.some.inj body).symm
  · rintro rfl; exact (Option.some.inj body).symm
  · rintro rfl; exact (Option.some.inj body).symm
  · rintro id k e rfl found
    obtain rfl : s.entryBody e = b := by simpa [State.sourceBody, found] using body
    refine ⟨fun kind => ?_, fun kind => ?_, fun kind g zones => ?_, fun kind zones => ?_⟩ <;>
      simp only [State.entryBody, kind, claimBody, State.slot]
    · rw [zones]
    · rw [zones]
  · rintro i v c rfl serve buffer
    have part : partBody v c = some b := by simpa [State.sourceBody, serve, buffer] using body
    refine ⟨partBody_header part, fun later => ?_⟩
    obtain ⟨r, record, rfl⟩ := partBody_record part later
    refine ⟨r, r.toPart, record, rfl, rfl, rfl, rfl, rfl, rfl, ?_, ?_, rfl, rfl, rfl⟩
    · intro g zones
      simp [Record.toPart, zones]
    · intro zones
      simp [Record.toPart, zones]

/-! ### FRAME_END -/

section FrameEnd

variable {s : State} {read levels : List Bool} (on : s.receives read) (ends : endsAtRunOf true (read ++ levels) = true)

include on ends

theorem exec_frameEnd_of_receives : exec (.frameEnd levels) s = .next
    (if s.line.isRemains (read ++ levels) then { s with line := { s.line with rx := none, awaiting := .ownRemains, slot := [] } }
      else s.frameEnds (receive (read ++ levels))) := by
  obtain ⟨power, view, idle, nothing, rx⟩ := on
  have after : s.line.frameAfter levels = some (read ++ levels) := by simp [LineIf.frameAfter, rx]
  change execFrameEnd levels s = _
  rw [execFrameEnd, happening_of_enabled
    (by simp [State.isOn, State.receiving, LineIf.endsAt, power, view, idle, nothing, rx, after, ends])]
  simp only [after]

end FrameEnd

theorem LineIf.isRemains_iff (l : LineIf) (read : List Bool) :
    l.isRemains read = true ↔ ∃ fa, l.faulted = some fa ∧ false ∉ read.drop fa.bit := by
  unfold LineIf.isRemains
  cases l.faulted with
  | none => simp
  | some fa =>
    simp only [List.all_eq_true, Option.some.injEq, exists_eq_left', id]
    exact ⟨fun all mem => Bool.false_ne_true (all false mem), fun none_ b mem => by cases b <;> simp_all⟩

theorem exec_frameEnd_of_hears {s : State} {read levels : List Bool} {r : Received} (hears : s.hears read levels r) :
    exec (.frameEnd levels) s = .next (s.frameEnds r) := by
  obtain ⟨on, ends, notRemains, rfl⟩ := hears
  rw [exec_frameEnd_of_receives on ends, if_neg]
  rw [s.line.isRemains_iff]
  rintro ⟨fa, faulted, remains⟩
  exact remains (notRemains fa faulted)

/-- R59: a failed or malformed frame is counted. -/
def State.checked (s : State) (r : Received) : State :=
  match r with
  | .good _ => s
  | .failed | .malformed => s.bump .checkFailures

/-- R39: every frame but a good SNAP is voted on. -/
theorem State.frameEnds_of_not_snap {s : State} {r : Received} (notSnap : ∀ f, r = .good f → f.body.kind ≠ .snap) :
    s.frameEnds r =
      State.castVote
        { s.checked r with line := { s.line with rx := none, awaiting := .heard r (s.vote r), slot := [] } } (s.vote r) := by
  cases r with
  | good f => simp [State.frameEnds, State.checked, Body.sequenced, notSnap f rfl]
  | failed => rfl
  | malformed => rfl

/-- R40: the classes of a vote. -/
theorem State.vote_of_inStep {s : State} (inStep : s.order.step = .inStep) (r : Received) :
    s.vote r = voteOn s.order.expected r := by
  simp [State.vote, inStep]

theorem State.vote_of_not_inStep {s : State} (out : s.order.step ≠ .inStep) (r : Received) : s.vote r = .abstain := by
  cases step : s.order.step <;> simp_all [State.vote]

section Vote

variable {expected : Seq} {f : Frame} (sequenced : f.body.kind ≠ .found)

include sequenced

theorem voteOn_of_earlier (earlier_ : 32769 ≤ (f.seq - expected).toNat) : voteOn expected (.good f) = .veto := by
  rw [voteOn, if_neg sequenced, if_pos (by simpa only [earlier, decide_eq_true_eq] using earlier_)]

theorem voteOn_of_expected (same : f.seq = expected) : voteOn expected (.good f) = .accept := by
  simp [voteOn, sequenced, earlier, same]

theorem voteOn_of_later (later : 1 ≤ (f.seq - expected).toNat) (half : (f.seq - expected).toNat ≤ 32768) :
    voteOn expected (.good f) = .acceptLater := by
  have other : f.seq ≠ expected := by
    rintro rfl
    simp at later
  have notEarlier : ¬ 32769 ≤ (f.seq - expected).toNat := by omega
  rw [voteOn, if_neg sequenced, if_neg (by simpa only [earlier, decide_eq_true_eq] using notEarlier), if_neg other]

end Vote

/-- R186: what a vote counts. -/
theorem State.castVote_counters (s : State) (v : Vote) (k : Fin 28) :
    (s.castVote v).port.counters[k] = if v = .veto ∧ k = 3 then satInc s.port.counters[k] else s.port.counters[k] := by
  cases v with
  | veto =>
    simp only [State.castVote, State.bump_counters, true_and]
    rfl
  | _ => rfl

/-- R48: the receiver veto run after a vote. -/
theorem State.castVote_rxRun (s : State) (v : Vote) :
    (s.castVote v).order.rxRun = match v with
      | .abstain => s.order.rxRun
      | .veto => min (s.order.rxRun + 1) 8
      | .accept | .acceptLater => 0 := by
  cases v <;> rfl

/-- R59: the frame is failed or malformed. -/
def Received.isBad : Received → Bool
  | .good _ => false
  | .failed | .malformed => true

theorem State.checked_counters (s : State) (r : Received) (k : Fin 28) :
    (s.checked r).port.counters[k] =
      if r.isBad = true ∧ k = 4 then satInc s.port.counters[k] else s.port.counters[k] := by
  cases r with
  | good f => rfl
  | _ =>
    simp only [State.checked, State.bump_counters, Received.isBad, true_and]
    rfl

/-- R39: the vote touches its run and its counters. -/
theorem State.frameEnds_frame {s : State} {r : Received} (notSnap : ∀ f, r = .good f → f.body.kind ≠ .snap) :
    s.frameEnds r =
      { s with
        line := { s.line with rx := none, awaiting := .heard r (s.vote r), slot := [] }
        order := { s.order with rxRun := (s.frameEnds r).order.rxRun }
        port := { s.port with counters := (s.frameEnds r).port.counters } } := by
  rw [State.frameEnds_of_not_snap notSnap]
  cases r <;> cases s.vote _ <;> rfl

/-- R186: what the end of a frame that is voted on counts. -/
theorem State.frameEnds_counters {s : State} {r : Received} (notSnap : ∀ f, r = .good f → f.body.kind ≠ .snap) (k : Fin 28) :
    (s.frameEnds r).port.counters[k] =
      if s.vote r = .veto ∧ k = 3 ∨ r.isBad = true ∧ k = 4 then satInc s.port.counters[k] else s.port.counters[k] := by
  have checks := s.checked_counters r k
  rw [State.frameEnds_of_not_snap notSnap, State.castVote_counters]
  dsimp only
  rw [checks]
  by_cases vetoes : k = 3
  · simp [vetoes]
  · simp [vetoes]

theorem State.frameEnds_rxRun {s : State} {r : Received} (notSnap : ∀ f, r = .good f → f.body.kind ≠ .snap) :
    (s.frameEnds r).order.rxRun = match s.vote r with
      | .abstain => s.order.rxRun
      | .veto => min (s.order.rxRun + 1) 8
      | .accept | .acceptLater => 0 := by
  rw [State.frameEnds_of_not_snap notSnap, State.castVote_rxRun]
  cases r <;> rfl

/-- Settles O32: the vote is `voteOn` in step; its run and its counters are those of `castVote` and `checked`. -/
theorem frameEndCastsTheVote : Obligations.FrameEndCastsTheVote := by
  refine ⟨fun s read levels r hears notSnap => ?_, fun s read levels fa on ends faulted remains => ?_⟩
  · have counters := State.frameEnds_counters (s := s) notSnap
    have run := State.frameEnds_rxRun (s := s) notSnap
    refine ⟨_, s.vote r, exec_frameEnd_of_hears hears, State.frameEnds_frame notSnap,
      fun out => State.vote_of_not_inStep out r, fun inStep => ?_, fun veto => ⟨?_, ?_⟩, fun other => ?_, fun accepts => ?_,
      fun abstains => ?_, fun bad => ?_, fun f good => ?_, fun k notVetoes notChecks => ?_⟩
    · rw [State.vote_of_inStep inStep]
      refine ⟨?_, ?_, ?_, ?_, ?_⟩
      · rintro (rfl | rfl) <;> rfl
      · rintro f rfl kind
        simp [voteOn, kind]
      · rintro f rfl kind before
        exact voteOn_of_earlier kind before
      · rintro f rfl kind same
        exact voteOn_of_expected kind same
      · rintro f rfl kind after half
        exact voteOn_of_later kind after half
    · rw [run, veto]
    · exact (counters 3).trans (if_pos (.inl ⟨veto, rfl⟩))
    · exact (counters 3).trans (if_neg (by simp [other]))
    · rw [run]
      obtain accepts | accepts := accepts <;> rw [accepts]
    · rw [run, abstains]
    · exact (counters 4).trans (if_pos (.inr ⟨by obtain rfl | rfl := bad <;> rfl, rfl⟩))
    · exact (counters 4).trans (if_neg (by simp [good, Received.isBad]))
    · exact (counters k).trans (if_neg (by simp [notVetoes, notChecks]))
  · rw [exec_frameEnd_of_receives on ends, if_pos ((s.line.isRemains_iff _).2 ⟨fa, faulted, remains⟩)]

end Sys2Proof.Machine

/-! # Events in a row, cleared slots, failed attempts (R160, R188, R134, R135) -/

namespace Sys2Proof.Machine

/-! ### Events in a row -/

/-- R188: the events are appended in turn. -/
def State.tells (s : State) (es : List Event) : State :=
  { s with port := es.foldl (fun p e => p.append s.cfg.idleTimeout e) s.port }

section Tells

variable (s : State) (es : List Event) (e : Event)

theorem State.emit_eq_tells : s.emit e = s.tells [e] := rfl

theorem State.tells_nil : s.tells [] = s := rfl

theorem State.tells_cons : s.tells (e :: es) = (s.emit e).tells es := rfl

theorem State.tells_tells (later : List Event) : (s.tells es).tells later = s.tells (es ++ later) := by
  simp [State.tells]

theorem State.tells_events : (s.tells es).port.events = s.eventsWith es := rfl

@[simp] theorem State.tells_counters : (s.tells es).port.counters = s.port.counters := by
  induction es generalizing s with
  | nil => rfl
  | cons e es ih =>
    rw [State.tells_cons, ih]
    exact Port.append_counters ..

/-- R186, R188: appending reads no counter. -/
theorem Port.append_withCounters (p : Port) (timeout : Nat) (counters : Vector Half 28) :
    ({ p with counters := counters } : Port).append timeout e = { p.append timeout e with counters := counters } := by
  simp only [Port.append]
  repeat' split
  all_goals rfl

theorem State.emit_bump (c : Counter) : (s.bump c).emit e = (s.emit e).bump c := by
  simp only [State.bump, State.emit, Port.append_withCounters, Port.append_counters]

theorem State.tells_bump (c : Counter) : (s.bump c).tells es = (s.tells es).bump c := by
  induction es generalizing s with
  | nil => rfl
  | cons e es ih => rw [State.tells_cons, State.tells_cons, State.emit_bump, ih]

/-- R189: which events stand after an append, the events before it say. -/
theorem Port.append_events_congr {p q : Port} (same : p.events = q.events) (m n : Nat) :
    (p.append m e).events = (q.append n e).events := by
  simp only [Port.append, same]
  repeat' split
  all_goals rfl

theorem State.eventsWith_congr {s u : State} (same : u.port.events = s.port.events) :
    u.eventsWith es = s.eventsWith es := by
  induction es generalizing s u with
  | nil => exact same
  | cons e es ih => exact ih (u := u.emit e) (s := s.emit e) (Port.append_events_congr e same _ _)

theorem State.eventsWith_emit : (s.emit e).eventsWith es = s.eventsWith (e :: es) := rfl

theorem State.eventsWith_append (later : List Event) : s.eventsWith (es ++ later) = (s.tells es).eventsWith later := by
  rw [← State.tells_events, ← State.tells_events, State.tells_tells]

end Tells

/-! ### Cleared slots -/

section Cleared

variable (s : State) (k : EventKind) (c : Cause) (q : Option Seq)

theorem State.clearEvents_eq (ts : List Tag) :
    ts.foldl (State.clearEvent k c q) s = s.tells ((ts.filter fun t => decide ((s.slots.slots[t]).state ≠ .free)).map fun t =>
      { kind := k, tag := some t, cause := some (.cause c), seq := q }) := by
  induction ts generalizing s with
  | nil => rfl
  | cons t ts ih =>
    rw [List.foldl_cons, ih]
    by_cases free : (s.slots.slots[t]).state = .free
    · rw [State.clearEvent, if_pos (show (s.slot t).state = .free from free), List.filter_cons_of_neg (by rw [decide_eq_true_eq, not_not]; exact free)]
    · rw [State.clearEvent, if_neg (show ¬ (s.slot t).state = .free from free), List.filter_cons_of_pos (by rw [decide_eq_true_eq]; exact free)]
      rfl

/-- R140, R160: what clearing the slots comes to. -/
theorem State.clearSlots_eq :
    s.clearSlots k c q =
      { s.tells (s.slotEnds k c q) with
        slots := { s.slots with slots := Vector.replicate 8 Slot.empty, queue := s.purgedQueue } } := by
  simp only [State.clearSlots, tags, State.clearEvents_eq]
  rfl

theorem State.purged_of_mem_purgedQueue {e : Entry} (mem : e ∈ s.purgedQueue) : e.purged = true := by
  obtain ⟨_, _, rfl⟩ := List.mem_map.1 mem
  rfl

theorem State.slotEnds_of_free (free : ∀ t : Tag, (s.slots.slots[t]).state = .free) : s.slotEnds k c q = [] := by
  rw [State.slotEnds, List.filter_eq_nil_iff.2 fun t _ => by rw [decide_eq_true_eq, not_not]; exact free t]
  rfl

theorem State.clearSlots_slot (t : Tag) : (s.clearSlots k c q).slots.slots[t] = Slot.empty := by
  rw [State.clearSlots_eq]
  simp

theorem State.clearSlots_purged : ∀ e ∈ (s.clearSlots k c q).slots.queue, e.purged = true := by
  rw [State.clearSlots_eq]
  exact fun e mem => s.purged_of_mem_purgedQueue mem

theorem State.clearSlots_hostCheck : (s.clearSlots k c q).slots.hostCheck = s.slots.hostCheck := by
  rw [State.clearSlots_eq]

theorem State.clearSlots_events : (s.clearSlots k c q).port.events = s.eventsWith (s.slotEnds k c q) := by
  rw [State.clearSlots_eq]
  rfl

theorem State.clearSlots_counters : (s.clearSlots k c q).port.counters = s.port.counters := by
  rw [State.clearSlots_eq]
  exact s.tells_counters _

end Cleared

/-! ### Out of the group -/

section Out

variable (s : State) (st : StationState) (c c' : Cause) (q q' : Option Seq) (k : EventKind)

/-- R77, R160: DETACHED, REFUSED or ISOLATED, with the slots cleared beside it. -/
def State.putOut : State := (s.enterOut st c q).clearSlots k c' q'

theorem State.putOut_frame :
    s.putOut st c c' q q' k =
      { s with
        mem := { s.mem with
          state := st, listen := .stopped
          pendingFound := false, pendingJoin := false, pendingLeave := false }
        order := s.order.toOff, table := Table.empty, roster := Roster.empty, pres := Presence.stopped, cu := CatchUp.idle
        slots := (s.putOut st c c' q q' k).slots, port := (s.putOut st c c' q q' k).port } := by
  unfold State.putOut
  rw [State.clearSlots_eq]
  rfl

theorem State.putOut_slot (t : Tag) : (s.putOut st c c' q q' k).slots.slots[t] = Slot.empty := State.clearSlots_slot ..

theorem State.putOut_purged : ∀ e ∈ (s.putOut st c c' q q' k).slots.queue, e.purged = true :=
  State.clearSlots_purged _ _ _ _

theorem State.putOut_hostCheck : (s.putOut st c c' q q' k).slots.hostCheck = s.slots.hostCheck := State.clearSlots_hostCheck ..

theorem State.putOut_outOfGroup : (s.putOut st c c' q q' k).outOfGroup := by
  have frame := s.putOut_frame st c c' q q' k
  exact ⟨congrArg (·.order.step) frame, congrArg (·.order.expected) frame, congrArg State.table frame,
    congrArg State.roster frame, congrArg State.pres frame, congrArg State.cu frame,
    congrArg (·.mem.pendingFound) frame, congrArg (·.mem.pendingJoin) frame, congrArg (·.mem.pendingLeave) frame,
    s.putOut_slot st c c' q q' k, s.putOut_purged st c c' q q' k⟩

theorem State.putOut_events :
    (s.putOut st c c' q q' k).port.events = s.eventsWith (stateEvent st c q :: s.slotEnds k c' q') :=
  State.clearSlots_events ..

theorem State.putOut_counters : (s.putOut st c c' q q' k).port.counters = s.port.counters := by
  rw [State.putOut, State.clearSlots_counters]
  exact Port.append_counters ..

end Out

/-! ### A failed catch-up attempt (R134, R135) -/

theorem failAttempt_of_more {s : State} (more : s.cu.attempts < 2) (c : Cause) :
    s.failAttempt c =
      { s.countFailure c with cu :=
        { s.cu with
          attempts := s.cu.attempts + 1
          snapshot := none
          vetoRun := 0
          syncreqPending := true
          phase := .requesting
          wait := if s.cu.phase = .requesting ∧ s.order.lastHeard = none then .running s.cfg.absenceTime else .stopped } } := by
  rw [failAttempt_eq, if_pos (by simp only [Config.maxAttempts]; omega)]

theorem failAttempt_of_third {s : State} (third : 2 ≤ s.cu.attempts) (c : Cause) :
    s.failAttempt c = (s.countFailure c).putOut .isolated .catchup .catchup s.order.lastHeard none .lost := by
  rw [failAttempt_eq, if_neg (by simp only [Config.maxAttempts]; omega)]
  rfl

/-- Settles O44: `failAttempt_of_more` and `failAttempt_of_third` say what a failed attempt comes to. -/
theorem catchupWaitExpiryFailsTheAttempt : Obligations.CatchupWaitExpiryFailsTheAttempt := by
  intro s left on running
  have fails : exec .catchupWaitExpiry s = .next (s.failAttempt .timeout) := by
    change execCatchupWaitExpiry s = _
    rw [execCatchupWaitExpiry, happening_of_enabled (by simp [on, running])]
  refine ⟨fun more => ?_, fun third => ⟨_, fails, ?_⟩⟩
  · rw [fails, failAttempt_of_more more]
    rfl
  · rw [failAttempt_of_third third]
    have frame := (s.countFailure .timeout).putOut_frame .isolated .catchup .catchup s.order.lastHeard none .lost
    have out := (s.countFailure .timeout).putOut_outOfGroup .isolated .catchup .catchup s.order.lastHeard none .lost
    have hostCheck := (s.countFailure .timeout).putOut_hostCheck .isolated .catchup .catchup s.order.lastHeard none .lost
    have counters := (s.countFailure .timeout).putOut_counters .isolated .catchup .catchup s.order.lastHeard none .lost
    have events := (s.countFailure .timeout).putOut_events .isolated .catchup .catchup s.order.lastHeard none .lost
    obtain ⟨step, expected, table, roster, pres, cu, found, join, leave, slots, queue⟩ := out
    refine ⟨congrArg (·.mem.state) frame, step, expected, congrArg (·.order.lastHeard) frame, table, roster, pres, cu,
      congrArg (·.mem.listen) frame, found, join, leave, slots, queue, counters, congrArg (·.line) frame,
      congrArg (·.cfg) frame, congrArg (·.zl) frame, hostCheck, fun free => ?_⟩
    rw [events, (s.countFailure .timeout).slotEnds_of_free _ _ _ free]
    rfl

/-! ### SNAP_SENT (R123) -/

section SnapSent

variable {s : State} {a : Attempt} {levels : List Bool} {b8 b9 : Bool} (done : s.completes a levels b8 b9)

include done

/-- R65: what SNAP_SENT does when it takes place. -/
theorem exec_snapSent_of_completes (snap : a.frame.body.kind = .snap) : exec (.snapSent levels) s =
    .next (State.partSent { s with line := s.line.toQuiet, order := { s.order with ownRunOf := none } }) := by
  obtain ⟨on, attempt, read⟩ := done
  have completed := (s.line.completes_iff levels a (b8 && b9)).2 ⟨attempt, b8, b9, read, rfl⟩
  change execSnapSent levels s = _
  rw [execSnapSent, happening_of_enabled (by simp [on])]
  simp [completed, Body.sequenced, snap]

end SnapSent

section PartSent

variable {s : State} {v : Serve} (serve : s.cu.serve = some v)

include serve

theorem State.partSent_of_more (more : v.index + 1 < v.count) :
    s.partSent = { s with cu := { s.cu with serve := some { v with index := v.index + 1 } } } := by
  simp only [State.partSent, serve, if_pos more]

theorem State.partSent_of_last (last : v.count ≤ v.index + 1) :
    s.partSent = (State.bump { s with cu := { s.cu with serve := none, buffer := none } } .snapshotsServed).startNextServe := by
  simp only [State.partSent, serve, if_neg (show ¬ v.index + 1 < v.count by omega)]

end PartSent

theorem State.startNextServe_of_nil {s : State} (list : s.cu.serveList = []) : s.startNextServe = s := by
  unfold State.startNextServe
  rw [list]
  split
  · next none_ => exact absurd none_ (List.cons_ne_nil _ _).symm
  · rfl

theorem State.startNextServe_of_cons {s : State} {x : StationNo} {rest : List StationNo} (idle : s.cu.serve = none)
    (list : s.cu.serveList = x :: rest) :
    s.startNextServe = { s with cu := { s.cu with serveList := rest } }.beginServe x := by
  simp only [State.startNextServe, idle, list]

/-- Settles O40. -/
theorem snapSentAdvancesTheServe : Obligations.SnapSentAdvancesTheServe := by
  intro s a v levels b8 b9 done snap serve
  refine ⟨_, exec_snapSent_of_completes done snap, ?_⟩
  generalize sent : ({ s with line := s.line.toQuiet, order := { s.order with ownRunOf := none } } : State) = u
  have at_ : u.cu.serve = some v := by rw [← sent]; exact serve
  by_cases more : v.index + 1 < v.count
  · rw [State.partSent_of_more at_ more]
    subst sent
    exact ⟨rfl, fun _ => ⟨rfl, rfl⟩, fun last => absurd more (by omega)⟩
  · rw [State.partSent_of_last at_ (by omega)]
    subst sent
    generalize ended : State.bump _ _ = w
    have served : w.port.counters[9] = satInc s.port.counters[9] := by
      rw [← ended]
      exact (State.bump_counters _ _ 9).trans (if_pos rfl)
    cases list : s.cu.serveList with
    | nil =>
      have none_ : w.cu.serveList = [] := by rw [← ended]; exact list
      rw [State.startNextServe_of_nil none_]
      subst ended
      exact ⟨rfl, fun less => absurd less more, fun _ => ⟨served, fun _ => rfl, nofun⟩⟩
    | cons x rest =>
      have next : w.cu.serveList = x :: rest := by rw [← ended]; exact list
      rw [State.startNextServe_of_cons (by rw [← ended]; rfl) next]
      subst ended
      refine ⟨rfl, fun less => absurd less more, fun _ => ⟨served, nofun, ?_⟩⟩
      rintro _ _ ⟨⟩
      exact ⟨rfl, rfl, rfl⟩

end Sys2Proof.Machine

/-! # The station's own frame, taken (R43, R65, R85, R118, R119) -/

namespace Sys2Proof.Machine

section Completed

variable {s : State} {a : Attempt} {levels : List Bool}

/-- R65: the own frame whole, and its slot recessive. -/
theorem exec_ownFrameOutcome_of_taken (whole : s.completes a levels true true) (sequenced : a.frame.body.kind ≠ .snap) :
    exec (.ownFrameOutcome levels) s = .next (State.ownTaken { s with line := s.line.toQuiet } a) :=
  ownFrameOutcome_of_completes whole sequenced

/-- R65: the own frame whole, and its slot dominant. -/
theorem exec_ownFrameOutcome_of_vetoed {b8 b9 : Bool} (whole : s.completes a levels b8 b9) (dominant : (b8 && b9) = false)
    (sequenced : a.frame.body.kind ≠ .snap) :
    exec (.ownFrameOutcome levels) s = .next (State.ownUnsent { s with line := s.line.toQuiet } a false) := by
  refine (ownFrameOutcome_of_completes whole sequenced).trans ?_
  rw [dominant]
  rfl

end Completed

/-- R33: the last heard number of a station in a state that records it. -/
theorem State.record_of_records {s : State} (records : s.mem.state.records = true) (seq : Seq) :
    s.record seq = { s with order := { s.order with lastHeard := some seq } } := by
  simp [State.record, records]

/-- R66: a taken own frame is counted, leaves its source, and ends the own-frame run. -/
def State.countsTaken (s : State) (src : Source) : State :=
  { (s.bump .framesTaken).leaveSource src with order := { s.order with ownRun := 0 } }

/-- R147: the slot whose entry the attempt was of. -/
def State.entryTaken (s : State) (src : Source) : Option Tag :=
  match src with
  | .queue id _ => s.slots.liveEntry id
  | _ => none

section OwnTaken

variable {s : State} {a : Attempt}

theorem ownTaken_of_inStep (inStep : s.order.step = .inStep) :
    s.ownTaken a = (s.countsTaken a.source).applyFrame true true (s.entryTaken a.source) a.frame := by
  have order : ((s.bump .framesTaken).leaveSource a.source).order = s.order := by cases a.source <;> rfl
  simp only [State.ownTaken, inStep]
  rw [order]
  rfl

theorem ownTaken_of_syncreq (behind : s.order.step = .behind) (source : a.source = .syncreq) :
    s.ownTaken a = ((s.countsTaken .syncreq).record a.frame.seq).syncreqTaken a.frame := by
  simp only [State.ownTaken, behind, source]
  rfl

theorem ownTaken_of_found (off : s.order.step = .off) (founding : s.mem.state = .founding) (source : a.source = .found) :
    s.ownTaken a = ((s.countsTaken .found).record a.frame.seq).foundTaken a.frame := by
  simp only [State.ownTaken, off, founding, source]
  rfl

end OwnTaken

theorem foundTaken_of_number {s : State} {me : StationNo} (number : s.mem.number = some me) (f : Frame) :
    s.foundTaken f =
      { s with
        table := Table.empty
        roster := { Roster.empty.add me f.seq with digest := some s.mem.ownDigest }
        order := s.order.toInStep (f.seq + 1) }.enterMember .founded (some f.seq) := by
  simp only [State.foundTaken, number]
  rfl

/-- R79, R85, R87: the roster of one station. -/
theorem Roster.add_empty_members (x n : StationNo) (seq : Seq) :
    (Roster.empty.add x seq).members[n] = if n = x then some { joinedAt := seq, lastTaken := seq } else none := by
  simp only [Roster.add, Roster.empty, Fin.getElem_fin, Vector.getElem_set, Vector.getElem_replicate, Fin.ext_iff,
    eq_comm]

/-- Settles O39. -/
theorem ownFoundAndSyncreqTaken : Obligations.OwnFoundAndSyncreqTaken := by
  intro s a levels whole
  constructor
  · intro me d off founding number source body
    have next := exec_ownFrameOutcome_of_taken whole (by simp [body, Body.kind])
    rw [ownTaken_of_found (by exact off) (by exact founding) source, State.record_of_records, foundTaken_of_number] at next
    case number => exact number
    case records =>
      change s.mem.state.records = true
      rw [founding]
      rfl
    refine ⟨_, next, rfl, rfl, rfl, rfl, rfl, rfl, rfl, fun n => Roster.add_empty_members me n _, rfl, rfl, rfl, ?_, ?_⟩
    · exact (congrArg (·[0]) (Port.append_counters ..)).trans ((State.bump_counters _ _ 0).trans (if_pos rfl))
    · apply Port.append_events_congr
      rfl
  · intro behind source body joined
    have next := exec_ownFrameOutcome_of_taken whole (by simp [body, Body.kind])
    rw [ownTaken_of_syncreq (by exact behind) source, State.record_of_records] at next
    case records =>
      change s.mem.state.records = true
      obtain state | state | state := joined <;> rw [state] <;> rfl
    exact ⟨_, next, rfl, rfl, rfl, rfl, rfl, holdBackAppend_newest _ _, behind, rfl, rfl, rfl, rfl, rfl, rfl, rfl⟩

end Sys2Proof.Machine

/-! # An own attempt that was not taken (R49, R64 to R66, R118, R150 to R153) -/

namespace Sys2Proof.Machine

/-! ### The third failed attempt (R135) -/

theorem failAttempt_isolates {s : State} (third : 2 ≤ s.cu.attempts) (c : Cause) :
    (s.failAttempt c).mem.state = .isolated ∧ (s.failAttempt c).outOfGroup ∧ (s.failAttempt c).line = s.line ∧
      (s.failAttempt c).cfg = s.cfg ∧ (s.failAttempt c).zl = s.zl ∧
      (s.failAttempt c).port.counters = (s.countFailure c).port.counters ∧
      (s.failAttempt c).port.events = (s.countFailure c).eventsWith
        ({ kind := .stationState, state := some .isolated, cause := some (.cause .catchup), seq := s.order.lastHeard } ::
          s.slotEnds .lost .catchup none) := by
  rw [failAttempt_of_third third]
  have frame := (s.countFailure c).putOut_frame .isolated .catchup .catchup s.order.lastHeard none .lost
  exact ⟨congrArg (·.mem.state) frame, State.putOut_outOfGroup .., congrArg (·.line) frame, congrArg (·.cfg) frame,
    congrArg (·.zl) frame, State.putOut_counters .., State.putOut_events ..⟩

/-! ### The own-frame run (R49) -/

section Run

variable {s : State}

theorem countOwnVeto_of_more (more : s.order.ownRun < 2) :
    s.countOwnVeto = { s with order := { s.order with ownRun := s.order.ownRun + 1 } } := by
  have count : min (s.order.ownRun + 1) Config.ownRunLimit = s.order.ownRun + 1 := by
    simp only [Config.ownRunLimit]
    omega
  have below : ¬ Config.ownRunLimit ≤ s.order.ownRun + 1 := by
    simp only [Config.ownRunLimit]
    omega
  simp only [State.countOwnVeto, count, if_neg below]

theorem countOwnVeto_of_third (third : 2 ≤ s.order.ownRun) (inStep : s.order.step = .inStep) :
    s.countOwnVeto =
      { s with
        order := s.order.toBehind
        pres := s.pres.quiesce s.cfg.absenceTime
        cu := { CatchUp.idle with
          phase := .requesting
          syncreqPending := true
          wait := if s.order.lastHeard = none then .running s.cfg.absenceTime else .stopped } } := by
  have count : min (s.order.ownRun + 1) Config.ownRunLimit = Config.ownRunLimit := by
    simp only [Config.ownRunLimit]
    omega
  simp only [State.countOwnVeto, count]
  rw [if_pos le_rfl, enterBehind_eq _ (by simp [inStep])]
  rfl

/-- R49, R108, R116, R125: what the run touches. -/
theorem countOwnVeto_frame :
    s.countOwnVeto =
      { s with order := s.countOwnVeto.order, pres := s.countOwnVeto.pres, cu := s.countOwnVeto.cu } := by
  simp only [State.countOwnVeto, State.enterBehind]
  repeat' split
  all_goals rfl

/-- R49: what the run does, told of the state before it. -/
theorem countsUnsent_countOwnVeto {u : State} (inStep : u.order.step = .inStep) (order : s.order = u.order)
    (pres : s.pres = u.pres) (cu : s.cu = u.cu) (cfg : s.cfg = u.cfg) : u.countsUnsent s.countOwnVeto := by
  refine ⟨fun more => ?_, fun third => ?_⟩
  · rw [countOwnVeto_of_more (by rwa [order])]
    exact ⟨by rw [order], pres, cu⟩
  · rw [countOwnVeto_of_third (by rwa [order]) (by rw [order, inStep])]
    dsimp only
    rw [order, pres, cfg]
    exact ⟨rfl, rfl, rfl, fun n => (u.pres.quiesce_absence u.cfg.absenceTime n).trans (Watch.unexpire_eq _ _), rfl⟩

end Run

/-! ### What the source does (R66, R150, R153) -/

/-- The slot unit has moved, and these events have been appended. -/
def State.settled (s : State) (slots : SlotUnit) (es : List Event) : State := { s.tells es with slots := slots }

section Rows

variable {s : State} {id : Nat} {e : Entry}

theorem entryUnsent_of_absent (absent : s.slots.queue.find? (fun q => q.id = id) = none) :
    s.entryUnsent id = s.settled s.slots [] := by
  simp only [State.entryUnsent, absent]
  rfl

variable (found : s.slots.queue.find? (fun q => q.id = id) = some e)

include found

theorem entryUnsent_of_purged (purged : e.purged = true) : s.entryUnsent id = s.settled (s.slots.drop id) [] := by
  simp only [State.entryUnsent, found, purged, if_true]
  rfl

variable (live : e.purged = false)

include live

theorem entryUnsent_of_release (kind : e.kind = .release) : s.entryUnsent id = s.settled s.slots [] := by
  simp [State.entryUnsent, found, live, kind, State.settled, State.tells_nil]

theorem entryUnsent_of_unmarked_claim (kind : e.kind = .claim) (mark : (s.slots.slots[e.tag]).mark = .none) :
    s.entryUnsent id = s.settled s.slots [] := by
  have mark : (s.slot e.tag).mark = .none := mark
  simp [State.entryUnsent, found, live, kind, State.claimUnsent, mark, State.settled, State.tells_nil]

/-- The slot of the entry becomes `y`, and its entry leaves the queue. -/
def SlotUnit.ends (u : SlotUnit) (t : Tag) (y : Slot) : SlotUnit := (u.dropEntryOf t).setSlot t y

theorem entryUnsent_of_release_after (kind : e.kind = .claim) (mark : (s.slots.slots[e.tag]).mark = .releaseAfter) :
    s.entryUnsent id = s.settled (s.slots.ends e.tag Slot.empty) [slotNote e.tag .freed (some .notSent) none] := by
  have mark : (s.slot e.tag).mark = .releaseAfter := mark
  simp only [State.entryUnsent, found, live, kind, State.claimUnsent, mark]
  rfl

theorem entryUnsent_of_cancel_after (kind : e.kind = .claim) (mark : (s.slots.slots[e.tag]).mark = .cancelAfter) :
    s.entryUnsent id = s.settled (s.slots.ends e.tag Slot.empty) [slotNote e.tag .withdrawn (some .notSent) none] := by
  have mark : (s.slot e.tag).mark = .cancelAfter := mark
  simp only [State.entryUnsent, found, live, kind, State.claimUnsent, mark]
  rfl

theorem entryUnsent_of_cancelling (kind : e.kind = .withdraw) (state : (s.slots.slots[e.tag]).state = .cancelling)
    (mark : (s.slots.slots[e.tag]).mark ≠ .releaseAfter) : s.entryUnsent id = s.settled s.slots [] := by
  have mark : (s.slot e.tag).mark ≠ .releaseAfter := mark
  have state : (s.slot e.tag).state = .cancelling := state
  simp [State.entryUnsent, found, live, kind, State.withdrawUnsent, mark, state, State.settled, State.tells_nil]

/-- The slot of the entry goes RELEASING, and its entry becomes a RELEASE in place. -/
def SlotUnit.released (u : SlotUnit) (t : Tag) (x : Slot) : SlotUnit :=
  (u.setSlot t { x with state := .releasing, mark := .none, holdTimer := .stopped }).toRelease t

theorem entryUnsent_of_marked_withdraw (kind : e.kind = .withdraw)
    (state : (s.slots.slots[e.tag]).state = .cancelling ∨ (s.slots.slots[e.tag]).state = .releasing)
    (mark : (s.slots.slots[e.tag]).mark = .releaseAfter) :
    s.entryUnsent id = s.settled (s.slots.released e.tag s.slots.slots[e.tag]) [] := by
  have mark : (s.slot e.tag).mark = .releaseAfter := mark
  have state : (s.slot e.tag).state = .cancelling ∨ (s.slot e.tag).state = .releasing := state
  obtain state | state := state <;>
  · simp only [State.entryUnsent, found, live, kind, State.withdrawUnsent, mark, state]
    rfl

theorem entryUnsent_of_held (kind : e.kind = .withdraw) (state : (s.slots.slots[e.tag]).state = .held) :
    s.entryUnsent id =
      s.settled (s.slots.ends e.tag { s.slots.slots[e.tag] with mark := .none }) [slotNote e.tag .tooLate none none] := by
  have state : (s.slot e.tag).state = .held := state
  simp only [State.entryUnsent, found, live, kind, State.withdrawUnsent, state]
  rw [← state]
  rfl

end Rows

/-! ### The source first, then the run -/

section Told

variable {u : State} {a : Attempt} {fault : Bool} {slots : SlotUnit} {es : List Event}
  (told : (u.bump .ownVetoed).sourceTold a fault = (u.bump .ownVetoed).settled slots es)
  (counts : a.source ≠ .syncreq ∧ a.source ≠ .found)

include told

theorem ownUnsent_frame :
    u.ownUnsent a fault =
      { (u.bump .ownVetoed).settled slots es with
        order := (u.ownUnsent a fault).order, pres := (u.ownUnsent a fault).pres, cu := (u.ownUnsent a fault).cu } := by
  rw [ownUnsent_eq, told]
  dsimp only
  split
  · exact countOwnVeto_frame
  · rfl

include counts

theorem ownUnsent_of_inStep (inStep : u.order.step = .inStep) : u.countsUnsent (u.ownUnsent a fault) := by
  rw [ownUnsent_eq, told, if_pos ⟨inStep, inStep, counts⟩]
  exact countsUnsent_countOwnVeto inStep rfl rfl rfl rfl

omit counts in
theorem ownUnsent_of_not_inStep (out : u.order.step ≠ .inStep) :
    (u.ownUnsent a fault).order = u.order ∧ (u.ownUnsent a fault).pres = u.pres ∧ (u.ownUnsent a fault).cu = u.cu := by
  rw [ownUnsent_eq, told, if_neg fun all => out all.1]
  exact ⟨rfl, rfl, rfl⟩

end Told

/-! ### Each source -/

section Sources

variable {u : State} {a : Attempt} {fault : Bool}

/-- R66: these sources keep their frame as it is. -/
theorem sourceTold_of_plain
    (plain : a.source = .leave ∨ a.source = .join ∨ a.source = .beat ∨ (∃ x, a.source = .evict x) ∨ ∃ i, a.source = .snap i) :
    u.sourceTold a fault = u := by
  obtain source | source | source | ⟨_, source⟩ | ⟨_, source⟩ := plain <;> simp only [State.sourceTold, source]

theorem sourceTold_of_queue {id : Nat} {k : EntryKind} (source : a.source = .queue id k) :
    u.sourceTold a fault = u.entryUnsent id := by
  simp only [State.sourceTold, source]

theorem ownUnsent_of_syncreq (source : a.source = .syncreq) (behind : u.order.step = .behind) :
    u.ownUnsent a fault = (u.bump .ownVetoed).syncreqUnsent := by
  have step : (u.bump .ownVetoed).order.step = .behind := behind
  rw [ownUnsent_eq, if_neg fun all => all.2.2.1 source]
  simp only [State.sourceTold, source, if_pos step]

theorem ownUnsent_of_late_syncreq (source : a.source = .syncreq) (other : u.order.step ≠ .behind) :
    u.ownUnsent a fault = u.bump .ownVetoed := by
  have step : (u.bump .ownVetoed).order.step ≠ .behind := other
  rw [ownUnsent_eq, if_neg fun all => all.2.2.1 source]
  simp only [State.sourceTold, source, if_neg step]

theorem ownUnsent_of_found_fault (source : a.source = .found) : u.ownUnsent a true = u.bump .ownVetoed := by
  rw [ownUnsent_eq, if_neg fun all => all.2.2.2 source]
  simp only [State.sourceTold, source, if_true]

theorem ownUnsent_of_found_veto (source : a.source = .found) (founding : u.mem.state = .founding) :
    u.ownUnsent a false = (u.bump .ownVetoed).foundVetoed := by
  have state : (u.bump .ownVetoed).mem.state = .founding := founding
  rw [ownUnsent_eq, if_neg fun all => all.2.2.2 source]
  simp only [State.sourceTold, source, if_pos state, Bool.false_eq_true, if_false]

theorem syncreqUnsent_of_more (more : u.cu.vetoRun < 2) :
    u.syncreqUnsent = { u with cu := { u.cu with vetoRun := u.cu.vetoRun + 1 } } := by
  simp only [State.syncreqUnsent]
  rw [if_pos (by simp only [Config.ownRunLimit]; omega)]

theorem syncreqUnsent_of_third (third : 2 ≤ u.cu.vetoRun) :
    u.syncreqUnsent = { u with cu := { u.cu with vetoRun := 0 } }.failAttempt .request := by
  simp only [State.syncreqUnsent]
  rw [if_neg (by simp only [Config.ownRunLimit]; omega)]

end Sources

/-! ### The outcome FAULT (R64) -/

section Fault

variable (u : State) (a : Attempt)

/-- What a source that counts in the own-frame run has once told, `returnsFault` asks of it. -/
theorem ownUnsent_keeps {slots : SlotUnit} {es : List Event}
    (told : (u.bump .ownVetoed).sourceTold a true = (u.bump .ownVetoed).settled slots es)
    (counts : a.source ≠ .syncreq ∧ a.source ≠ .found) :
    ((u.order.step = .inStep → u.countsUnsent (u.ownUnsent a true)) ∧
      (u.order.step ≠ .inStep → (u.ownUnsent a true).order = u.order ∧ (u.ownUnsent a true).pres = u.pres ∧
        (u.ownUnsent a true).cu = u.cu)) ∧
    u.ownUnsent a true =
      { u.bump .ownVetoed with
        order := (u.ownUnsent a true).order, pres := (u.ownUnsent a true).pres, cu := (u.ownUnsent a true).cu
        slots := slots
        port := es.foldl (fun p e => p.append u.cfg.idleTimeout e) (u.bump .ownVetoed).port } :=
  ⟨⟨ownUnsent_of_inStep told counts, ownUnsent_of_not_inStep told⟩, ownUnsent_frame told⟩

theorem returnsFault_ownUnsent : u.returnsFault (u.ownUnsent a true) a := by
  refine ⟨fun plain => ?_, fun id k source => ?_, fun late => ?_, fun source behind => ⟨?_, ?_, ?_⟩⟩
  · have counts : a.source ≠ .syncreq ∧ a.source ≠ .found := by
      obtain source | source | source | ⟨_, source⟩ | ⟨_, source⟩ := plain <;> simp [source]
    exact ownUnsent_keeps u a (slots := u.slots) (es := []) (sourceTold_of_plain plain) counts
  · have counts : a.source ≠ .syncreq ∧ a.source ≠ .found := by simp [source]
    have keeps {slots : SlotUnit} {es : List Event}
        (row : (u.bump .ownVetoed).entryUnsent id = (u.bump .ownVetoed).settled slots es) :=
      ownUnsent_keeps u a ((sourceTold_of_queue source).trans row) counts
    refine ⟨fun absent => keeps (entryUnsent_of_absent absent), fun e found => ⟨fun purged => ?_, fun live => ⟨?_, ?_, ?_⟩⟩⟩
    · exact keeps (entryUnsent_of_purged found purged)
    · exact fun kind => keeps (entryUnsent_of_release found live kind)
    · exact fun kind => ⟨fun mark => keeps (entryUnsent_of_unmarked_claim found live kind mark),
        fun mark => keeps (entryUnsent_of_release_after found live kind mark),
        fun mark => keeps (entryUnsent_of_cancel_after found live kind mark)⟩
    · exact fun kind => ⟨fun state mark => keeps (entryUnsent_of_cancelling found live kind state mark),
        fun state mark => keeps (entryUnsent_of_marked_withdraw found live kind state mark),
        fun state => keeps (entryUnsent_of_held found live kind state)⟩
  · obtain source | ⟨source, other⟩ := late
    · exact ownUnsent_of_found_fault source
    · exact ownUnsent_of_late_syncreq source other
  · intro more
    rw [ownUnsent_of_syncreq source behind, syncreqUnsent_of_more (by exact more)]
    rfl
  · intro third more
    rw [ownUnsent_of_syncreq source behind, syncreqUnsent_of_third (by exact third), failAttempt_of_more (by exact more)]
    rfl
  · intro third last
    rw [ownUnsent_of_syncreq source behind, syncreqUnsent_of_third (by exact third)]
    exact failAttempt_isolates (s := { u.bump .ownVetoed with cu := { u.cu with vetoRun := 0 } }) last .request

end Fault

end Sys2Proof.Machine

/-! # The own frame vetoed, lost or faulted (R49, R63, R64, R85, R118) -/

namespace Sys2Proof.Machine

/-! ### VETOED -/

theorem State.bump_self (s : State) (c : Counter) :
    (s.bump c).port.counters[c.index] = satInc s.port.counters[c.index] :=
  (State.bump_counters _ _ _).trans (if_pos rfl)

theorem State.bump_other (s : State) (c : Counter) {k : Fin 28} (other : k ≠ c.index) :
    (s.bump c).port.counters[k] = s.port.counters[k] :=
  (State.bump_counters _ _ _).trans (if_neg other)

theorem countFailure_counters (s : State) (c : Cause) (k : Fin 28) :
    (s.countFailure c).port.counters[k] = if k = 8 then satInc s.port.counters[k] else s.port.counters[k] := by
  refine (State.bump_counters _ _ k).trans ?_
  have emitted := State.tells_counters s [{ kind := .catchupFail, count := some (s.cu.attempts + 1), cause := some (.cause c) }]
  rw [State.emit_eq_tells, emitted]
  rfl

theorem failAttempt_counters (s : State) (c : Cause) :
    (s.failAttempt c).port.counters = (s.countFailure c).port.counters := by
  rw [failAttempt_eq]
  split
  · rfl
  · exact State.putOut_counters ..

/-- R186: an own SYNCREQ that was not taken counts as a failed attempt at most. -/
theorem syncreqUnsent_counters (s : State) {k : Fin 28} (other : k ≠ 8) :
    s.syncreqUnsent.port.counters[k] = s.port.counters[k] := by
  by_cases third : 2 ≤ s.cu.vetoRun
  · rw [syncreqUnsent_of_third third, failAttempt_counters, countFailure_counters, if_neg other]
  · rw [syncreqUnsent_of_more (by omega)]

/-- What the outcome does at an entry: the slot unit moves, and events follow. -/
theorem entryUnsent_settled (s : State) (id : Nat) : ∃ slots es, s.entryUnsent id = s.settled slots es := by
  unfold State.entryUnsent State.claimUnsent State.withdrawUnsent
  dsimp only
  repeat' split
  all_goals first | exact ⟨_, [], rfl⟩ | exact ⟨_, [_], rfl⟩

section Vetoed

variable {u : State} {a : Attempt} {slots : SlotUnit} {es : List Event}
  (told : (u.bump .ownVetoed).sourceTold a false = (u.bump .ownVetoed).settled slots es)

include told

theorem ownUnsent_counters : (u.ownUnsent a false).port.counters = (u.bump .ownVetoed).port.counters :=
  (congrArg (·.port.counters) (ownUnsent_frame told)).trans (State.tells_counters _ _)

theorem ownUnsent_slots : (u.ownUnsent a false).slots = slots := congrArg (·.slots) (ownUnsent_frame told)

theorem ownUnsent_events : (u.ownUnsent a false).port.events = u.eventsWith es :=
  (congrArg (·.port.events) (ownUnsent_frame told)).trans (State.eventsWith_congr (s := u) (u := u.bump .ownVetoed) es rfl)

end Vetoed

/-- R85: the own FOUND vetoed. -/
theorem foundVetoed_eq {s : State} (founding : s.mem.state = .founding) (off : s.order.step = .off) :
    s.foundVetoed =
      { s with
        mem := { s.mem with
          state := .joining, listen := .stopped, pendingFound := false, pendingJoin := false, pendingLeave := false }
        order := s.order.toBehind
        pres := (s.pres.quiesce s.cfg.absenceTime).quiesce s.cfg.absenceTime
        cu := { CatchUp.idle with
          phase := .requesting
          syncreqPending := true
          wait := if s.order.lastHeard = none then .running s.cfg.absenceTime else .stopped }
        port := s.port.append s.cfg.idleTimeout (stateEvent .joining .foundVetoed none) } := by
  have moved : s.mem.state ≠ .joining := by simp [founding]
  simp only [State.foundVetoed, State.enterJoining, if_neg moved]
  rw [enterBehind_eq _ (by change s.order.step ≠ .behind; simp [off])]
  rfl

/-- Settles O37: the rows of the source (`entryUnsent_of_…`) and the own-frame run (`ownUnsent_of_inStep`). -/
theorem ownVetoCountsTowardsBehind : Obligations.OwnVetoCountsTowardsBehind := by
  intro s a levels b8 b9 whole dominant sequenced
  have vetoed := exec_ownFrameOutcome_of_vetoed whole (by obtain rfl | rfl := dominant <;> simp) sequenced
  generalize ended : ({ s with line := s.line.toQuiet } : State) = u at vetoed
  have counted : (u.bump .ownVetoed).port.counters[1] = satInc s.port.counters[1] := by
    rw [← ended]
    exact State.bump_self _ .ownVetoed
  refine ⟨fun inStep plain => ?_, fun inStep id k e source found live => ?_, fun off founding source => ?_,
    fun behind source => ?_⟩
  · have counts : a.source ≠ .syncreq ∧ a.source ≠ .found := by
      obtain source | source | source | ⟨_, source⟩ := plain <;> simp [source]
    have told : (u.bump .ownVetoed).sourceTold a false = (u.bump .ownVetoed).settled u.slots [] :=
      sourceTold_of_plain (by tauto)
    have counters := ownUnsent_counters told
    have run := ownUnsent_of_inStep told counts (by rw [← ended]; exact inStep)
    have frame := ownUnsent_frame told
    refine ⟨_, vetoed, ?_, by rw [counters, counted], fun k other => ?_, ?_⟩
    · rw [counters]
      subst ended
      exact frame
    · rw [counters, State.bump_other u .ownVetoed other, ← ended]
    · subst ended
      exact run
  · have counts : a.source ≠ .syncreq ∧ a.source ≠ .found := by simp [source]
    have row {slots : SlotUnit} {es : List Event}
        (unsent : (u.bump .ownVetoed).entryUnsent id = (u.bump .ownVetoed).settled slots es) :
        (u.bump .ownVetoed).sourceTold a false = (u.bump .ownVetoed).settled slots es :=
      (sourceTold_of_queue source).trans unsent
    have found : (u.bump .ownVetoed).slots.queue.find? (fun q => q.id = id) = some e := by rw [← ended]; exact found
    have ends {slots : SlotUnit} {es : List Event}
        (unsent : (u.bump .ownVetoed).entryUnsent id = (u.bump .ownVetoed).settled slots es) :
        (u.ownUnsent a false).slots = slots ∧ (u.ownUnsent a false).port.events = u.eventsWith es :=
      ⟨ownUnsent_slots (row unsent), ownUnsent_events (row unsent)⟩
    obtain ⟨_, _, some_⟩ := entryUnsent_settled (u.bump .ownVetoed) id
    have frame := ownUnsent_frame (row some_)
    have run := ownUnsent_of_inStep (row some_) counts (by rw [← ended]; exact inStep)
    have counters := ownUnsent_counters (row some_)
    subst ended
    refine ⟨_, vetoed, run, by rw [counters, counted], congrArg (·.line) frame, congrArg (·.table) frame,
      congrArg (·.roster) frame, congrArg (·.mem) frame, congrArg (·.cfg) frame, congrArg (·.zl) frame, ?_, ?_, ?_, ?_, ?_⟩
    · rintro (kind | ⟨kind, mark⟩ | ⟨kind, state, mark⟩)
      · exact ends (entryUnsent_of_release found live kind)
      · exact ends (entryUnsent_of_unmarked_claim found live kind mark)
      · exact ends (entryUnsent_of_cancelling found live kind state mark)
    · exact fun kind mark => ends (entryUnsent_of_release_after found live kind mark)
    · exact fun kind mark => ends (entryUnsent_of_cancel_after found live kind mark)
    · exact fun kind state mark => ends (entryUnsent_of_marked_withdraw found live kind state mark)
    · exact fun kind state => ends (entryUnsent_of_held found live kind state)
  · rw [ownUnsent_of_found_veto source (by rw [← ended]; exact founding),
      foundVetoed_eq (by rw [← ended]; exact founding) (by rw [← ended]; exact off)] at vetoed
    subst ended
    refine ⟨_, vetoed, rfl, rfl, rfl, rfl, rfl, rfl, rfl, rfl, ?_, rfl, rfl, ?_⟩
    · exact (congrArg (·[1]) (Port.append_counters ..)).trans counted
    · apply Port.append_events_congr
      rfl
  · rw [ownUnsent_of_syncreq source (by rw [← ended]; exact behind)] at vetoed
    subst ended
    refine ⟨_, vetoed, ?_, fun more => ?_, fun third more => ?_, fun third last => ?_⟩
    · exact (syncreqUnsent_counters _ (k := 1) (by decide)).trans counted
    · rw [syncreqUnsent_of_more (by exact more)]
      exact ⟨rfl, rfl, rfl, rfl, rfl⟩
    · rw [syncreqUnsent_of_third (by exact third), failAttempt_of_more (by exact more)]
      refine ⟨rfl, rfl, rfl, rfl, rfl, rfl, rfl, rfl, ?_, ?_⟩
      · refine (countFailure_counters _ _ 8).trans ?_
        rw [if_pos rfl]
        exact congrArg satInc (State.bump_other _ .ownVetoed (k := 8) (by decide))
      · apply Port.append_events_congr
        rfl
    · rw [syncreqUnsent_of_third (by exact third)]
      have isolated := failAttempt_isolates (s := { State.bump { s with line := s.line.toQuiet } .ownVetoed with
        cu := { s.cu with vetoRun := 0 } }) last .request
      obtain ⟨state, ⟨step, _, table, _, _, cu, _⟩, _⟩ := isolated
      exact ⟨state, step, cu, table⟩

end Sys2Proof.Machine

/-! # The line view (R52, R59, R69, R70) -/

namespace Sys2Proof.Machine

/-! ### Runs at the end of the levels read -/

/-- The length of the run of one level at the end. -/
def runOf (x : Bool) (levels : List Bool) : Nat := (levels.reverse.takeWhile fun b => b == x).length

theorem runOf_concat (x b : Bool) (levels : List Bool) :
    runOf x (levels ++ [b]) = if b = x then runOf x levels + 1 else 0 := by
  by_cases same : b = x <;> simp [runOf, same]

theorem replicate_prefix_iff (x : Bool) (n : Nat) (levels : List Bool) :
    List.replicate n x <+: levels ↔ n ≤ (levels.takeWhile fun b => b == x).length := by
  induction levels generalizing n with
  | nil => cases n <;> simp [List.replicate_succ]
  | cons b levels ih =>
    cases n with
    | zero => simp
    | succ n =>
      rw [List.replicate_succ, List.cons_prefix_cons, ih, List.takeWhile_cons]
      by_cases same : b = x
      · rw [if_pos (by simp [same])]
        simp [same]
      · rw [if_neg (by simpa using same)]
        simp [Ne.symm same]

theorem replicate_suffix_iff (x : Bool) (n : Nat) (levels : List Bool) :
    List.replicate n x <:+ levels ↔ n ≤ runOf x levels := by
  rw [← List.reverse_prefix, List.reverse_replicate, replicate_prefix_iff]
  rfl

theorem runOf_replicate (x : Bool) (n : Nat) : runOf x (List.replicate n x) = n := by
  simp [runOf]

theorem runOf_other {x y : Bool} (other : y ≠ x) (n : Nat) : runOf x (List.replicate n y) = 0 := by
  cases n with
  | zero => rfl
  | succ n =>
    rw [runOf, List.reverse_replicate, List.replicate_succ, List.takeWhile_cons_of_neg (by simpa using other)]
    rfl

namespace LineIf

variable (l : LineIf) (levels : List Bool)

theorem history_concat (b : Bool) : l.history (levels ++ [b]) = l.history levels ++ [b] := by
  simp [LineIf.history]

theorem counting_eq :
    l.counting levels =
      { l with
        quietBits := min (runOf true (l.history levels)) 11, dominantBits := min (runOf false (l.history levels)) 65 } := by
  have recessive : (id : Bool → Bool) = fun b => b == true := by funext b; cases b <;> rfl
  have dominant : (not : Bool → Bool) = fun b => b == false := by funext b; cases b <;> rfl
  simp only [LineIf.counting, runOf, recessive, dominant]

/-- R52, R69, R70: one level more is counted. -/
theorem counting_hears (b : Bool) : (l.counting levels).hears b = l.counting (levels ++ [b]) := by
  rw [counting_eq, counting_eq, history_concat, runOf_concat, runOf_concat]
  cases b
  · simp [LineIf.hears, Config.stuckBits]
    omega
  · simp [LineIf.hears, LineIf.counted, Config.idleGap]
    omega

theorem counting_gapOver : (l.counting levels).gapOver = true ↔ 11 ≤ runOf true (l.history levels) := by
  rw [counting_eq]
  simp [LineIf.gapOver, Config.idleGap]

theorem counting_isHeldDominant :
    (l.counting levels).isHeldDominant = true ↔ l.view = .settling ∧ 65 ≤ runOf false (l.history levels) := by
  rw [counting_eq]
  simp [LineIf.isHeldDominant, Config.stuckBits]
  omega

/-- R52, R69: a level after the one that moves the view is not read in this view any more. -/
def inTurn : Prop :=
  ∀ i : Fin levels.length, (l.hasGap (levels.take i.val) → levels[i] = true) ∧
    (l.view = .settling → l.hasStuck (levels.take i.val) → levels[i] = false)

theorem inTurn_concat (b : Bool) :
    l.inTurn (levels ++ [b]) ↔
      l.inTurn levels ∧ (l.hasGap levels → b = true) ∧ (l.view = .settling → l.hasStuck levels → b = false) := by
  have upTo {i : Nat} (le : i ≤ levels.length) : (levels ++ [b]).take i = levels.take i := List.take_append_of_le_length le
  constructor
  · intro turn
    refine ⟨fun i => ?_, ?_⟩
    · have here := turn ⟨i, by simp only [List.length_append]; omega⟩
      simpa only [upTo i.isLt.le, Fin.getElem_fin, List.getElem_append_left i.isLt] using here
    · have last := turn ⟨levels.length, by simp⟩
      simpa [upTo le_rfl] using last
  · rintro ⟨turn, gap, stuck⟩ ⟨i, less⟩
    rw [List.length_append, List.length_singleton] at less
    obtain below | rfl : i < levels.length ∨ i = levels.length := by omega
    · simpa only [upTo below.le, Fin.getElem_fin, List.getElem_append_left below] using turn ⟨i, below⟩
    · simpa [upTo le_rfl] using And.intro gap stuck

/-- The levels counted before this view's first. -/
theorem history_nil (one : l.quietBits = 0 ∨ l.dominantBits = 0) :
    l.quietBits = 0 ∧ l.history [] = List.replicate l.dominantBits false ∨
      l.dominantBits = 0 ∧ l.history [] = List.replicate l.quietBits true :=
  one.imp (fun none_ => ⟨none_, by simp [LineIf.history, none_]⟩) fun none_ => ⟨none_, by simp [LineIf.history, none_]⟩

section Counts

variable {l} (quiet : l.quietBits ≤ 11) (dominant : l.dominantBits ≤ 65) (one : l.quietBits = 0 ∨ l.dominantBits = 0)

include one

theorem hasGap_iff (turn : l.inTurn levels) : l.hasGap levels ↔ 11 ≤ runOf true (l.history levels) := by
  induction levels using List.reverseRecOn with
  | nil =>
    rw [LineIf.hasGap]
    obtain ⟨_, before⟩ | ⟨_, before⟩ := l.history_nil one <;> rw [before, List.infix_replicate_iff]
    · rw [runOf_other (by decide)]
      simp [List.replicate_succ]
    · rw [runOf_replicate]
      simp
  | append_singleton levels b ih =>
    obtain ⟨turn, gap, _⟩ := (l.inTurn_concat levels b).1 turn
    rw [LineIf.hasGap, history_concat, List.infix_concat_iff, replicate_suffix_iff, or_iff_left_iff_imp]
    intro before
    rw [runOf_concat, if_pos (gap before)]
    have := (ih turn).1 before
    omega

theorem hasStuck_iff (settling : l.view = .settling) (turn : l.inTurn levels) :
    l.hasStuck levels ↔ 65 ≤ runOf false (l.history levels) := by
  induction levels using List.reverseRecOn with
  | nil =>
    rw [LineIf.hasStuck]
    obtain ⟨_, before⟩ | ⟨_, before⟩ := l.history_nil one <;> rw [before, List.infix_replicate_iff]
    · rw [runOf_replicate]
      simp
    · rw [runOf_other (by decide)]
      simp [List.replicate_succ]
  | append_singleton levels b ih =>
    obtain ⟨turn, _, stuck⟩ := (l.inTurn_concat levels b).1 turn
    rw [LineIf.hasStuck, history_concat, List.infix_concat_iff, replicate_suffix_iff, or_iff_left_iff_imp]
    intro before
    rw [runOf_concat, if_pos (stuck settling before)]
    have := (ih turn).1 before
    omega

include quiet dominant

theorem counting_nil : l.counting [] = l := by
  rw [counting_eq]
  obtain ⟨none_, before⟩ | ⟨none_, before⟩ := l.history_nil one <;> rw [before]
  · rw [runOf_replicate, runOf_other (by decide), Nat.min_eq_left dominant, show min 0 11 = l.quietBits by omega]
  · rw [runOf_replicate, runOf_other (by decide), Nat.min_eq_left quiet, show min 0 65 = l.dominantBits by omega]

/-- R52, R69, R70: levels read in turn are counted. -/
theorem hearsAll_of_inTurn (turn : l.inTurn levels) : l.hearsAll levels = some (l.counting levels) := by
  induction levels using List.reverseRecOn with
  | nil => rw [counting_nil quiet dominant one]; rfl
  | append_singleton levels b ih =>
    obtain ⟨turn, gap, stuck⟩ := (l.inTurn_concat levels b).1 turn
    rw [LineIf.hearsAll_append, ih turn, Option.bind_some, LineIf.hearsAll, if_neg, counting_hears]
    · rfl
    · rw [Bool.or_eq_true, Bool.and_eq_true, Bool.and_eq_true, counting_gapOver, counting_isHeldDominant,
        ← hasGap_iff levels one turn]
      rintro (⟨over_, level⟩ | ⟨⟨settling, over_⟩, level⟩)
      · simp [gap over_] at level
      · rw [← hasStuck_iff levels one settling turn] at over_
        simp [stuck settling over_] at level

theorem hearsAll_of_not_inTurn (out : ¬ l.inTurn levels) : l.hearsAll levels = none := by
  induction levels using List.reverseRecOn with
  | nil => exact absurd (fun i => i.elim0) out
  | append_singleton levels b ih =>
    by_cases turn : l.inTurn levels
    · rw [LineIf.hearsAll_append, hearsAll_of_inTurn levels quiet dominant one turn, Option.bind_some, LineIf.hearsAll, if_pos]
      rw [Bool.or_eq_true, Bool.and_eq_true, Bool.and_eq_true, counting_gapOver, counting_isHeldDominant,
        ← hasGap_iff levels one turn]
      by_cases gap : l.hasGap levels ∧ b = false
      · exact .inl ⟨gap.1, by simp [gap.2]⟩
      · have late : ¬ (l.view = .settling → l.hasStuck levels → b = false) := fun stuck =>
          out ((l.inTurn_concat levels b).2 ⟨turn, fun over_ => by simpa [over_] using gap, stuck⟩)
        push Not at late
        obtain ⟨settling, over_, level⟩ := late
        exact .inr ⟨⟨settling, (hasStuck_iff levels one settling turn).1 over_⟩, by simpa using level⟩
    · rw [LineIf.hearsAll_append, ih turn]
      rfl

end Counts

end LineIf

/-! ### The line's commands (R52, R69, R70) -/

section Commands

variable {s : State} {levels : List Bool} (on : s.power = .on)

include on

theorem exec_lineSettled_of_settling (settling : s.line.view = .settling) : exec (.lineSettled levels) s = .next
    (match s.line.hearsAll levels with
      | none => s
      | some l =>
        { s with line :=
            if l.gapOver then { l with view := .quiet, quietBits := Config.idleGap, dominantBits := 0 } else l }) := by
  change execLineSettled s levels = _
  rw [execLineSettled, happening_of_enabled (by simp [on, settling])] <;> rfl

theorem exec_lineStuck_of_settling (settling : s.line.view = .settling) : exec (.lineStuck levels) s = .next
    (match s.line.hearsAll levels with
      | none => s
      | some l =>
        if l.isHeldDominant then
          State.emit { s with line := { l with view := .stuck, quietBits := 0, dominantBits := 0, stuck := true } }
            { kind := .lineStuck }
        else { s with line := l }) := by
  change execLineStuck s levels = _
  rw [execLineStuck, happening_of_enabled (by simp [on, settling])] <;> rfl

theorem exec_lineClear_of_stuck (stuck : s.line.view = .stuck) : exec (.lineClear levels) s = .next
    (match s.line.hearsAll levels with
      | none => s
      | some l =>
        if l.gapOver then
          State.emit
            { s with line := { l with
                view := .quiet, quietBits := Config.idleGap, dominantBits := 0, stuck := false } }
            { kind := .lineClear }
        else { s with line := l }) := by
  change execLineClear s levels = _
  rw [execLineClear, happening_of_enabled (by simp [on, stuck])] <;> rfl

theorem exec_lineFrameStart_of_quiet (quiet : s.line.view = .quiet) (idle : s.line.tx = .idle) :
    exec (.lineFrameStart levels) s =
      .next { s with line := { s.line with view := .frame, quietBits := 0, rx := some (false :: levels) } } := by
  change execLineFrameStart s levels = _
  rw [execLineFrameStart, happening_of_enabled (by simp [on, quiet, idle])]

end Commands

/-- R59: the frame is abandoned. -/
theorem exec_frameBroken_of_receives {s : State} {read levels : List Bool} (receives : s.receives read)
    (breaks : endsAtRunOf false (read ++ levels) = true) : exec (.frameBroken levels) s = .next
      ((State.bump { s with line := { s.line with
        view := .settling, quietBits := 0, dominantBits := 1, rx := none, faulted := none } } .checkFailures).deliverFault
          s.line.faulted) := by
  obtain ⟨power, view, idle, nothing, rx⟩ := receives
  have after : s.line.frameAfter levels = some (read ++ levels) := by simp [LineIf.frameAfter, rx]
  change execFrameBroken s levels = _
  rw [execFrameBroken, happening_of_enabled
    (by simp [State.receiving, LineIf.endsAt, power, view, idle, nothing, rx, after, breaks])]

/-- Settles O28: levels read in turn are counted (`LineIf.hearsAll_of_inTurn`), and a kept FAULT reaches its source
(`returnsFault_ownUnsent`). -/
theorem lineViewMovesWithTheLine : Obligations.LineViewMovesWithTheLine := by
  intro s on
  refine ⟨fun levels quiet dominant one => ⟨fun settling => ?_, fun stuck => ?_⟩,
    fun levels quiet idle => exec_lineFrameStart_of_quiet on quiet idle, fun read levels receives breaks => ⟨?_, ?_⟩⟩
  · have counted := LineIf.hearsAll_of_inTurn levels quiet dominant one
    have uncounted := LineIf.hearsAll_of_not_inTurn levels quiet dominant one
    have gapOver (turn : s.line.inTurn levels) := (LineIf.hasGap_iff levels one turn).trans (s.line.counting_gapOver levels).symm
    have held (turn : s.line.inTurn levels) : s.line.hasStuck levels ↔ (s.line.counting levels).isHeldDominant = true := by
      rw [LineIf.hasStuck_iff levels one settling turn, s.line.counting_isHeldDominant, and_iff_right settling]
    rw [exec_lineSettled_of_settling on settling, exec_lineStuck_of_settling on settling]
    refine ⟨fun gap stuck over_ => ?_, fun gap stuck under => ?_, fun gap stuck over_ => ?_, fun gap stuck under => ?_,
      fun out => ?_⟩
    · have turn : s.line.inTurn levels := fun i => ⟨gap i, fun _ => stuck i⟩
      simp only [counted turn, if_pos ((gapOver turn).1 over_)]
      rfl
    · have turn : s.line.inTurn levels := fun i => ⟨gap i, fun _ => stuck i⟩
      simp only [counted turn, if_neg (mt (gapOver turn).2 under)]
    · have turn : s.line.inTurn levels := fun i => ⟨gap i, fun _ => stuck i⟩
      simp only [counted turn, if_pos ((held turn).1 over_)]
    · have turn : s.line.inTurn levels := fun i => ⟨gap i, fun _ => stuck i⟩
      simp only [counted turn, if_neg (mt (held turn).2 under)]
    · have late : ¬ s.line.inTurn levels := fun turn => out ⟨fun i => (turn i).1, fun i => (turn i).2 settling⟩
      simp only [uncounted late, and_self]
  · have counted := LineIf.hearsAll_of_inTurn levels quiet dominant one
    have uncounted := LineIf.hearsAll_of_not_inTurn levels quiet dominant one
    have gapOver (turn : s.line.inTurn levels) := (LineIf.hasGap_iff levels one turn).trans (s.line.counting_gapOver levels).symm
    have other : s.line.view ≠ .settling := by simp [stuck]
    rw [exec_lineClear_of_stuck on stuck]
    refine ⟨fun gap over_ => ?_, fun gap under => ?_, fun out => ?_⟩
    · have turn : s.line.inTurn levels := fun i => ⟨gap i, fun settling => absurd settling other⟩
      simp only [counted turn, if_pos ((gapOver turn).1 over_)]
      rfl
    · have turn : s.line.inTurn levels := fun i => ⟨gap i, fun settling => absurd settling other⟩
      simp only [counted turn, if_neg (mt (gapOver turn).2 under)]
    · have late : ¬ s.line.inTurn levels := fun turn => out fun i => (turn i).1
      simp only [uncounted late]
  · intro none_
    rw [exec_frameBroken_of_receives receives breaks, none_]
    rfl
  · intro fa faulted
    rw [exec_frameBroken_of_receives receives breaks, faulted]
    exact ⟨_, rfl, returnsFault_ownUnsent _ _⟩

end Sys2Proof.Machine

/-! # Another station's frame vetoed (R40, R42, R48, R83, R105) -/

namespace Sys2Proof.Machine

/-- R42, R58: the state once the slot of a heard frame has been read. -/
def State.slotRead (s : State) (r : Received) (v : Vote) (taken : Bool) : State :=
  { State.outcomeHeard { s with line := { s.line with awaiting := .nothing } } r v taken with line := s.line.toQuiet }

theorem State.outcomeHeard_line (s : State) (r : Received) (v : Vote) (taken : Bool) :
    (s.outcomeHeard r v taken).line = s.line :=
  congrArg GroupRest.line (outcomeHeard_groupRest s r v taken)

/-- What FRAME_OUTCOME does at a station with no FAULT kept. -/
theorem exec_frameOutcome_of_reads {s : State} {r : Received} {v : Vote} {others : List Bool} {b8 b9 : Bool}
    (reads : s.readsSlot r v others b8 b9) (calm : s.line.faulted = none) :
    exec (.frameOutcome others) s = .next (s.slotRead r v (b8 && b9)) := by
  refine (frameOutcome_of_readsSlot reads).trans ?_
  rw [calm]
  dsimp only
  rw [State.outcomeHeard_line]
  rfl

/-! ### What is heard restarts timers (R83, R105) -/

theorem State.heardFrom_eq (s : State) (x : StationNo) : s.heardFrom x = { s with pres := (s.heardFrom x).pres } := by
  unfold State.heardFrom
  split <;> rfl

/-- R105: the absence timers after a frame of `x`. -/
theorem State.heardFrom_absence (s : State) (x n : StationNo) :
    (s.heardFrom x).pres.absence[n] =
      if x = n ∧ s.roster.isMember n = true ∧ s.mem.number ≠ some n ∧ s.pres.absence[n] ≠ .stopped then
        .running s.cfg.absenceTime else s.pres.absence[n] := by
  unfold State.heardFrom
  by_cases same : x = n
  · subst same
    by_cases listens : s.roster.isMember x = true ∧ s.mem.number ≠ some x ∧ s.pres.absence[x] ≠ .stopped
    · obtain ⟨member, other, runs⟩ := listens
      rw [if_pos (by simp [member, State.isMe, other]; exact runs), if_pos ⟨rfl, member, other, runs⟩]
      simp [Presence.startAbsence]
    · rw [if_neg (c := _ = true), if_neg fun all => listens all.2]
      simpa [State.isMe, and_assoc] using listens
  · rw [if_neg (c := x = n ∧ _) fun all => same all.1]
    split
    · simp only [Presence.startAbsence]
      exact Vector.getElem_set_ne _ _ (by simpa [Fin.ext_iff] using same)
    · rfl

theorem State.heardFrom_beat (s : State) (x : StationNo) :
    (s.heardFrom x).pres.beat = s.pres.beat ∧ (s.heardFrom x).pres.beatPending = s.pres.beatPending := by
  unfold State.heardFrom
  split <;> exact ⟨rfl, rfl⟩

theorem State.restartListen_eq (s : State) :
    s.restartListen =
      { s with mem := if s.mem.listen = .stopped then s.mem else { s.mem with listen := .running s.cfg.absenceTime } } := by
  unfold State.restartListen
  cases listen : s.mem.listen <;> simp [Timer.isRunning]

/-! ### The outcome VETOED (R40, R42, R48) -/

section Vetoed

variable {s : State} {v : Vote}

theorem vetoed_of_leaves (inStep : s.order.step = .inStep) (leaves : v = .acceptLater ∨ v = .veto ∧ 8 ≤ s.order.rxRun) :
    s.vetoed v = s.enterBehind := by
  obtain rfl | ⟨rfl, run⟩ := leaves
  · simp [State.vetoed, inStep]
  · simp only [State.vetoed, inStep, Config.rxRunLimit, run, and_self, if_true]

theorem vetoed_of_stays
    (stays : s.order.step ≠ .inStep ∨ v = .accept ∨ v = .abstain ∨ v = .veto ∧ s.order.rxRun < 8) : s.vetoed v = s := by
  obtain out | rfl | rfl | ⟨rfl, run⟩ := stays
  · cases v <;> simp [State.vetoed, out]
  · rfl
  · rfl
  · have few : ¬ (s.order.step = .inStep ∧ Config.rxRunLimit ≤ s.order.rxRun) := fun all => absurd all.2 (by simpa [Config.rxRunLimit] using run)
    simp only [State.vetoed, if_neg few]

theorem vetoed_frame : s.vetoed v = { s with order := (s.vetoed v).order, pres := (s.vetoed v).pres, cu := (s.vetoed v).cu } := by
  cases v <;> simp only [State.vetoed, State.enterBehind]
  all_goals repeat' split
  all_goals rfl

theorem vetoed_order :
    (s.vetoed v).order.expected = s.order.expected ∧ (s.vetoed v).order.lastHeard = s.order.lastHeard := by
  cases v
  all_goals unfold State.vetoed State.enterBehind
  all_goals repeat' split
  all_goals exact ⟨rfl, rfl⟩

end Vetoed

/-! ### The slot of a heard frame (R51, R197) -/

theorem LineIf.slotAfter_three {l : LineIf} (empty : l.slot = []) (o7 o8 o9 : Bool) :
    l.slotAfter [o7, o8, o9] = [o7 && l.awaiting.drive 0, o8 && l.awaiting.drive 1, o9 && l.awaiting.drive 2] := by
  simp only [LineIf.slotAfter, empty, Awaiting.slotLevels]
  rfl

theorem LineIf.drive_of_listener {l : LineIf} (idle : l.tx = .idle) : l.drive = l.awaiting.drive l.slot.length := by
  rw [LineIf.drive, LineIf.attempt, idle]

/-- R40, R48, R83, R105: what a frame vetoed leaves, told of the state before it. -/
structure State.LeftByVeto (s t : State) (v : Vote) : Prop where
  frame : t = { s with mem := t.mem, order := t.order, pres := t.pres, cu := t.cu }
  expected : t.order.expected = s.order.expected
  lastHeard : t.order.lastHeard = s.order.lastHeard
  behind : s.order.step = .inStep → v = .acceptLater ∨ v = .veto ∧ 8 ≤ s.order.rxRun →
    t.order = s.order.toBehind ∧ t.pres.beat = .stopped ∧ t.pres.beatPending = false ∧
      t.cu = { CatchUp.idle with
        phase := .requesting
        syncreqPending := true
        wait := if s.order.lastHeard = none then .running s.cfg.absenceTime else .stopped }
  stays : s.order.step ≠ .inStep ∨ v = .accept ∨ v = .abstain ∨ v = .veto ∧ s.order.rxRun < 8 →
    t.order = s.order ∧ t.pres.beat = s.pres.beat ∧ t.pres.beatPending = s.pres.beatPending ∧ t.cu = s.cu

theorem State.vetoed_leftByVeto (s : State) (v : Vote) : s.LeftByVeto (s.vetoed v) v where
  frame := by rw [vetoed_frame]
  expected := vetoed_order.1
  lastHeard := vetoed_order.2
  behind inStep leaves := by
    rw [vetoed_of_leaves inStep leaves, enterBehind_eq _ (by simp [inStep])]
    exact ⟨rfl, rfl, rfl, rfl⟩
  stays stays := by
    rw [vetoed_of_stays stays]
    exact ⟨rfl, rfl, rfl, rfl⟩

theorem State.vetoed_absence (s : State) (v : Vote) (n : StationNo) :
    (s.order.step = .inStep → v = .acceptLater ∨ v = .veto ∧ 8 ≤ s.order.rxRun →
      (s.vetoed v).pres.absence[n] = s.pres.absence[n].unexpire s.cfg.absenceTime) ∧
    (s.order.step ≠ .inStep ∨ v = .accept ∨ v = .abstain ∨ v = .veto ∧ s.order.rxRun < 8 →
      (s.vetoed v).pres.absence[n] = s.pres.absence[n]) := by
  refine ⟨fun inStep leaves => ?_, fun stays => by rw [vetoed_of_stays stays]⟩
  rw [vetoed_of_leaves inStep leaves, enterBehind_eq _ (by simp [inStep])]
  exact s.pres.quiesce_absence _ n

theorem State.vetoed_cases (s : State) (v : Vote) :
    s.vetoed v = s ∨ s.order.step = .inStep ∧ s.vetoed v = s.enterBehind := by
  cases v with
  | acceptLater =>
    by_cases inStep : s.order.step = .inStep
    · exact .inr ⟨inStep, if_pos inStep⟩
    · exact .inl (if_neg inStep)
  | veto =>
    by_cases eighth : s.order.step = .inStep ∧ Config.rxRunLimit ≤ s.order.rxRun
    · exact .inr ⟨eighth.1, if_pos eighth⟩
    · exact .inl (if_neg eighth)
  | _ => exact .inl rfl

theorem State.vetoed_absence_stopped (s : State) (v : Vote) (n : StationNo) :
    (s.vetoed v).pres.absence[n] = .stopped ↔ s.pres.absence[n] = .stopped := by
  obtain same | ⟨inStep, moved⟩ := s.vetoed_cases v
  · rw [same]
  · rw [moved, enterBehind_eq _ (by simp [inStep])]
    dsimp only
    rw [Presence.quiesce_absence]
    cases s.pres.absence[n] <;> simp [Watch.unexpire]

/-- R83, R105: the same of a good frame, which restarts the listen timer and its sender's absence timer besides. -/
theorem State.heardVetoed_leftByVeto (s : State) (v : Vote) (x : StationNo) :
    s.LeftByVeto ((s.restartListen.vetoed v).heardFrom x) v := by
  have listened := s.restartListen_eq
  generalize s.restartListen = w at listened ⊢
  have order : w.order = s.order := by rw [listened]
  have cu : w.cu = s.cu := by rw [listened]
  have cfg : w.cfg = s.cfg := by rw [listened]
  have pres : w.pres = s.pres := by rw [listened]
  have left := w.vetoed_leftByVeto v
  have frame := left.frame
  have expected := left.expected
  have lastHeard := left.lastHeard
  have behind := left.behind
  have stays := left.stays
  rw [order, cfg] at behind
  rw [order, cu, pres] at stays
  rw [order] at expected lastHeard
  generalize w.vetoed v = t at *
  obtain ⟨beat, pending⟩ := t.heardFrom_beat x
  rw [State.heardFrom_eq]
  refine ⟨?_, expected, lastHeard, fun inStep leaves => ?_, fun stay => ?_⟩
  · rw [frame, listened]
  · obtain ⟨order, still, clear, caught⟩ := behind inStep leaves
    exact ⟨order, beat.trans still, pending.trans clear, caught⟩
  · obtain ⟨order, same, keep, caught⟩ := stays stay
    exact ⟨order, beat.trans same, pending.trans keep, caught⟩

/-- R42, R58: the two outcomes VETOED. -/
theorem State.outcomeHeard_vetoed (s : State) (r : Received) (v : Vote) :
    s.outcomeHeard r v false =
      match r with
      | .good f => (s.restartListen.vetoed v).heardFrom f.sender
      | .failed | .malformed => s.vetoed v := by
  cases r <;> rfl

theorem State.outcomeHeard_leftByVeto (s : State) (r : Received) (v : Vote) : s.LeftByVeto (s.outcomeHeard r v false) v := by
  rw [State.outcomeHeard_vetoed]
  cases r with
  | good f => exact s.heardVetoed_leftByVeto v f.sender
  | _ => exact s.vetoed_leftByVeto v

theorem State.outcomeHeard_vetoed_mem (s : State) (r : Received) (v : Vote) :
    ((∃ f, r = .good f) ∧ s.mem.listen ≠ .stopped →
      (s.outcomeHeard r v false).mem = { s.mem with listen := .running s.cfg.absenceTime }) ∧
    (¬ ((∃ f, r = .good f) ∧ s.mem.listen ≠ .stopped) → (s.outcomeHeard r v false).mem = s.mem) := by
  have vetoed (u : State) : (u.vetoed v).mem = u.mem := congrArg (·.mem) (vetoed_frame (s := u) (v := v))
  rw [State.outcomeHeard_vetoed]
  cases r with
  | good f =>
    dsimp only
    rw [State.heardFrom_eq]
    dsimp only
    rw [vetoed, State.restartListen_eq]
    by_cases listen : s.mem.listen = .stopped <;> simp [listen]
  | _ => simp [vetoed]

/-- R105: the frame is a good one of a member other than this station, whose absence timer runs or is expired. -/
def State.hearsMember (s : State) (r : Received) (n : StationNo) : Prop :=
  (∃ f, r = .good f ∧ f.sender = n) ∧ s.roster.isMember n = true ∧ s.mem.number ≠ some n ∧ s.pres.absence[n] ≠ .stopped

theorem State.outcomeHeard_vetoed_absence (s : State) (r : Received) (v : Vote) (n : StationNo) :
    (s.hearsMember r n → (s.outcomeHeard r v false).pres.absence[n] = .running s.cfg.absenceTime) ∧
    (¬ s.hearsMember r n → (s.outcomeHeard r v false).pres.absence[n] = (s.vetoed v).pres.absence[n]) := by
  rw [State.outcomeHeard_vetoed]
  cases r with
  | good f =>
    have same : (s.restartListen.vetoed v).pres = (s.vetoed v).pres ∧ (s.restartListen.vetoed v).roster = s.roster ∧
        (s.restartListen.vetoed v).mem.number = s.mem.number ∧ (s.restartListen.vetoed v).cfg = s.cfg := by
      rw [State.restartListen_eq, vetoed_frame, vetoed_frame (s := s)]
      refine ⟨?_, rfl, ?_, rfl⟩
      · cases v <;> simp only [State.vetoed, State.enterBehind]
        all_goals repeat' split
        all_goals rfl
      · dsimp only
        split <;> rfl
    obtain ⟨pres, roster, number, cfg⟩ := same
    dsimp only
    rw [State.heardFrom_absence, pres, roster, number, cfg]
    have hears : s.hearsMember (.good f) n ↔ f.sender = n ∧ s.roster.isMember n = true ∧ s.mem.number ≠ some n ∧
        (s.vetoed v).pres.absence[n] ≠ .stopped := by
      have still : (s.vetoed v).pres.absence[n] ≠ .stopped ↔ s.pres.absence[n] ≠ .stopped :=
        not_congr (s.vetoed_absence_stopped v n)
      rw [still]
      simp [State.hearsMember]
    rw [hears]
    exact ⟨fun yes => if_pos yes, fun no => if_neg no⟩
  | _ => simp [State.hearsMember]

/-- Settles O34: what a vetoed frame leaves is `State.LeftByVeto`; its timers are those of `State.heardFrom_absence` and
`State.vetoed_absence`. -/
theorem vetoedFrameIsNotApplied : Obligations.VetoedFrameIsNotApplied := by
  refine ⟨fun l r v o7 o8 o9 awaits empty => ⟨fun veto => ?_, fun other => ?_⟩, fun l r v awaits idle => ?_, ?_⟩
  · rw [LineIf.slotAfter_three empty, awaits, veto]
    simp [Awaiting.drive]
  · have silent (n : Nat) := Awaiting.drive_of_no_veto (w := .heard r v) (by rintro ⟨_, ⟨⟩⟩; exact other rfl) n
    rw [LineIf.slotAfter_three empty, awaits, silent, silent, silent]
    simp
  · rw [LineIf.drive_of_listener idle, awaits]
    cases v <;> simp [Awaiting.drive]
    omega
  · intro s r v others b8 b9 reads dominant calm
    have next := exec_frameOutcome_of_reads reads calm
    rw [show (b8 && b9) = false by obtain rfl | rfl := dominant <;> simp] at next
    rw [State.slotRead] at next
    generalize waits : ({ s with line := { s.line with awaiting := .nothing } } : State) = w at next
    have left := w.outcomeHeard_leftByVeto r v
    have mem := w.outcomeHeard_vetoed_mem r v
    have absence := w.outcomeHeard_vetoed_absence r v
    have vetoed := w.vetoed_absence v
    generalize w.outcomeHeard r v false = t at *
    subst waits
    have frame := left.frame
    refine ⟨_, next, ?_, ?_, left.expected, left.lastHeard, ?_, ?_, ?_, ?_, rfl, fun good listens => ?_, fun other => ?_,
      fun n heard => (absence n).1 heard, fun n unheard => ⟨?_, ?_⟩, fun stays => ?_, fun leaves => ?_, fun stays => ?_⟩
    · exact congrArg (·.table) frame
    · exact congrArg (·.roster) frame
    · exact congrArg (·.slots) frame
    · exact congrArg (·.port) frame
    · exact congrArg (·.cfg) frame
    · exact congrArg (·.zl) frame
    · exact mem.1 ⟨good, listens⟩
    · refine mem.2 ?_
      rintro ⟨good, listens⟩
      obtain bad | silent := other
      · exact bad good
      · exact listens silent
    · rintro ⟨inStep, leaves⟩ expired
      refine ((absence n).2 unheard).trans (((vetoed n).1 inStep (leaves.imp_left And.left)).trans ?_)
      rw [Watch.unexpire_eq]
      exact if_pos expired
    · rintro (stays | ⟨⟨inStep, leaves⟩, calm⟩)
      · exact ((absence n).2 unheard).trans ((vetoed n).2 stays)
      · refine ((absence n).2 unheard).trans (((vetoed n).1 inStep (leaves.imp_left And.left)).trans ?_)
        rw [Watch.unexpire_eq]
        exact if_neg calm
    · exact (left.stays stays).2
    · obtain ⟨inStep, leaves⟩ := leaves
      obtain ⟨order, beat, pending, cu⟩ := left.behind inStep (leaves.imp_left And.left)
      dsimp only
      rw [order, cu]
      refine ⟨rfl, rfl, rfl, rfl, rfl, rfl, rfl, rfl, beat, pending, fun n => decide_eq_false fun expired => ?_⟩
      by_cases heard : s.hearsMember r n
      · exact Watch.noConfusion (((absence n).1 heard).symm.trans expired)
      · have calm := ((absence n).2 heard).symm.trans expired
        rw [(vetoed n).1 inStep (leaves.imp_left And.left), Watch.unexpire_eq] at calm
        split at calm
        · cases calm
        · next other => exact other calm
    · exact (left.stays stays).1

end Sys2Proof.Machine

/-! # A taken frame at a station that is not in step with it (R84, R86 to R88, R116, R117) -/

namespace Sys2Proof.Machine

/-- R57, R186: another station's frame has been counted for its sender. -/
def State.countsFrom (s : State) (n : StationNo) : State :=
  State.bump { s with line := { s.line with awaiting := .nothing } } (.takenFrom n)

/-- R33: the last taken sequence heard. -/
def State.recorded (s : State) (seq : Seq) : State := { s with order := { s.order with lastHeard := some seq } }

theorem State.record_eq_recorded {s : State} (records : s.mem.state.records = true) (seq : Seq) :
    s.record seq = s.recorded seq := State.record_of_records records seq

/-- R42, R57, R105: a good frame TAKEN, at a station with no FAULT kept. -/
theorem exec_frameOutcome_of_taken {s : State} {f : Frame} {v : Vote} {others : List Bool}
    (reads : s.readsSlot (.good f) v others true true) (calm : s.line.faulted = none) :
    exec (.frameOutcome others) s =
      .next { ((s.countsFrom f.sender).taken f v).heardFrom f.sender with line := s.line.toQuiet } :=
  exec_frameOutcome_of_reads reads calm

section Taken

variable {s : State} {f : Frame} {v : Vote}

theorem taken_of_accept (inStep : s.order.step = .inStep) : s.taken f .accept = s.applyFrame true false none f := by
  simp only [State.taken, inStep]

theorem taken_of_acceptLater (inStep : s.order.step = .inStep) (records : s.mem.state.records = true) :
    s.taken f .acceptLater = (s.recorded f.seq).enterBehind.keepBack false f false := by
  simp only [State.taken, inStep, State.record_eq_recorded records]

theorem taken_of_behind_found {d : Half} (behind : s.order.step = .behind) (records : s.mem.state.records = true)
    (body : f.body = .found d) : s.taken f v = (s.recorded f.seq).adopt f d := by
  simp only [State.taken, behind, State.record_eq_recorded records, body]

theorem taken_of_behind_other (behind : s.order.step = .behind) (records : s.mem.state.records = true)
    (other : f.body.kind ≠ .found) :
    s.taken f v = (s.recorded f.seq).keepBack false f (decide (s.order.lastHeard = none)) := by
  simp only [State.taken, behind, State.record_eq_recorded records]
  cases body : f.body with
  | found d => simp [body, Body.kind] at other
  | _ => rfl

theorem taken_of_listens (off : s.order.step = .off) (listens : s.mem.state = .listening ∨ s.mem.state = .founding) :
    s.taken f v = (s.recorded f.seq).hearTaken f := by
  obtain state | state := listens <;>
    simp only [State.taken, off, state, State.record_eq_recorded (s := s) (by rw [state]; rfl)]

theorem taken_of_out (off : s.order.step = .off)
    (out : s.mem.state = .idle ∨ s.mem.state = .detached ∨ s.mem.state = .refused ∨ s.mem.state = .isolated) :
    s.taken f v = s := by
  have silent : s.record f.seq = s := by
    rw [State.record, if_neg]
    obtain state | state | state | state := out <;> rw [state] <;> simp [StationState.records]
  obtain state | state | state | state := out <;> simp only [State.taken, off, state, silent]

theorem hearTaken_of_other (other : f.body.kind ≠ .found) :
    s.hearTaken f = ((s.enterJoining false .heard (some f.seq)).enterBehind).keepBack false f false := by
  unfold State.hearTaken
  cases body : f.body with
  | found d => simp [body, Body.kind] at other
  | _ => rfl

end Taken

theorem State.heardFrom_of_not_member {s : State} {n : StationNo} (out : s.roster.isMember n = false) : s.heardFrom n = s := by
  simp [State.heardFrom, out]

theorem Roster.empty_isMember (n : StationNo) : Roster.empty.isMember n = false := by
  simp [Roster.isMember, Roster.empty]

/-- R87, R99: the own number's FOUND. -/
theorem adopt_of_foreign {s : State} {f : Frame} (foreign : s.mem.number = some f.sender) (d : Half) :
    s.adopt f d = ((s.adoptGroup f.sender d f.seq).emit (duplicateEvent f)).putOut .isolated .duplicate .duplicate
      (some f.seq) (some f.seq) .lost := by
  simp only [State.adopt, State.isMe, foreign, decide_true, if_true]
  rfl

/-! ### Adoption (R87, R88) -/

section Adopt

variable {s : State} {f : Frame} (d : Half)

/-- R87: the group of one is taken over, and the station goes JOINING. -/
def State.adoptJoining (s : State) (f : Frame) (d : Half) : State :=
  (s.adoptGroup f.sender d f.seq).enterJoining true .adopted (some f.seq)

variable (peer : s.mem.number ≠ some f.sender)

include peer

theorem adopt_of_outside (outside : s.mem.state = .listening ∨ s.mem.state = .founding ∨ s.mem.state = .joining) :
    s.adopt f d = s.adoptJoining f d := by
  obtain state | state | state := outside <;> simp [State.adopt, State.isMe, peer, state, State.adoptJoining]

theorem adopt_of_member (member : s.mem.state = .member) :
    s.adopt f d = (s.adoptJoining f d).clearSlots .lost .adopted (some f.seq) := by
  simp [State.adopt, State.isMe, peer, member, State.adoptJoining]

theorem adopt_of_leaving (leaving : s.mem.state = .leaving) :
    s.adopt f d =
      (s.adoptGroup f.sender d f.seq).putOut .detached .dissolved .dissolved (some f.seq) (some f.seq) .lost := by
  simp [State.adopt, State.isMe, peer, leaving, State.putOut]

theorem adoptJoining_absence : (s.adoptJoining f d).pres.absence[f.sender] = .running s.cfg.absenceTime := by
  have member : (Roster.empty.add f.sender f.seq).isMember f.sender = true := by simp [Roster.isMember_add]
  unfold State.adoptJoining
  rw [enterJoining_eq]
  dsimp only
  rw [Presence.quiesce_absence]
  dsimp only [State.adoptGroup]
  rw [Presence.watchMembers_absence, if_pos]
  · rfl
  · rw [Bool.and_eq_true, decide_eq_true_eq]
    exact ⟨member, peer⟩

end Adopt

theorem enterJoining_port (s : State) (join : Bool) (c : Cause) (q : Option Seq) :
    (s.enterJoining join c q).port =
      if s.mem.state = .joining then s.port else s.port.append s.cfg.idleTimeout (stateEvent .joining c q) := by
  simp only [State.enterJoining]
  split <;> rfl

theorem State.heardFrom_running {s : State} {n : StationNo} (runs : s.pres.absence[n] = .running s.cfg.absenceTime) :
    (s.heardFrom n).pres.absence[n] = .running s.cfg.absenceTime := by
  rw [State.heardFrom_absence]
  split
  · rfl
  · exact runs

/-- R93, R99: the own number's FOUND, taken where it would be adopted, leads to the same adoption in every state. -/
theorem taken_of_found {s : State} {f : Frame} {v : Vote} {d : Half} (body : f.body = .found d)
    (adopts : s.order.step = .off ∧ (s.mem.state = .listening ∨ s.mem.state = .founding) ∨
      s.order.step = .behind ∧ (s.mem.state = .joining ∨ s.mem.state = .member ∨ s.mem.state = .leaving)) :
    s.taken f v = (s.recorded f.seq).adopt f d := by
  obtain ⟨off, listens⟩ | ⟨behind, follows⟩ := adopts
  · rw [taken_of_listens off listens]
    simp only [State.hearTaken, body]
  · refine taken_of_behind_found behind ?_ body
    obtain state | state | state := follows <;> rw [state] <;> rfl

theorem State.adoptJoining_frame (s : State) (f : Frame) (d : Half) :
    s.adoptJoining f d =
      { s with
        mem := { s.mem with
          state := .joining, listen := .stopped, pendingFound := false, pendingJoin := true, pendingLeave := false }
        order := s.order.toInStep (f.seq + 1)
        table := Table.empty
        roster := { Roster.empty.add f.sender f.seq with digest := some d }
        cu := CatchUp.idle
        pres := (s.adoptJoining f d).pres
        port := (s.adoptJoining f d).port } := by
  unfold State.adoptJoining
  rw [enterJoining_eq]
  rfl

theorem State.adoptJoining_port (s : State) (f : Frame) (d : Half) :
    (s.adoptJoining f d).port =
      if s.mem.state = .joining then s.port
      else s.port.append s.cfg.idleTimeout (stateEvent .joining .adopted (some f.seq)) :=
  enterJoining_port _ _ _ _

/-- R87: what adoption comes to, at a station whose slots and events may have moved besides. -/
structure State.Adopted (s t : State) (f : Frame) (d : Half) : Prop where
  state : t.mem = { s.mem with
    state := .joining, listen := .stopped, pendingFound := false, pendingJoin := true, pendingLeave := false }
  order : t.order = s.order.toInStep (f.seq + 1)
  table : t.table = Table.empty
  roster : t.roster = { Roster.empty.add f.sender f.seq with digest := some d }
  absence : t.pres.absence[f.sender] = .running s.cfg.absenceTime
  cu : t.cu = CatchUp.idle
  cfg : t.cfg = s.cfg

theorem State.adoptJoining_adopted {s : State} {f : Frame} (d : Half) (peer : s.mem.number ≠ some f.sender) :
    s.Adopted (s.adoptJoining f d) f d := by
  have frame := s.adoptJoining_frame f d
  exact ⟨congrArg (·.mem) frame, congrArg (·.order) frame, congrArg (·.table) frame, congrArg (·.roster) frame,
    adoptJoining_absence d peer, congrArg (·.cu) frame, congrArg (·.cfg) frame⟩

theorem State.Adopted.clearSlots {s t : State} {f : Frame} {d : Half} (h : s.Adopted t f d) (k : EventKind) (c : Cause)
    (q : Option Seq) : s.Adopted (t.clearSlots k c q) f d := by
  rw [State.clearSlots_eq]
  exact ⟨h.state, h.order, h.table, h.roster, h.absence, h.cu, h.cfg⟩

theorem State.Adopted.heardFrom {s t : State} {f : Frame} {d : Half} (h : s.Adopted t f d) :
    s.Adopted (t.heardFrom f.sender) f d := by
  have absence : t.pres.absence[f.sender] = .running t.cfg.absenceTime := by rw [h.absence, h.cfg]
  have heard := State.heardFrom_running absence
  rw [h.cfg] at heard
  have frame := t.heardFrom_eq f.sender
  exact ⟨(congrArg (·.mem) frame).trans h.state, (congrArg (·.order) frame).trans h.order,
    (congrArg (·.table) frame).trans h.table, (congrArg (·.roster) frame).trans h.roster, heard,
    (congrArg (·.cu) frame).trans h.cu, (congrArg (·.cfg) frame).trans h.cfg⟩

/-- The fields of an adoption. -/
theorem State.Adopted.fields {s t : State} {f : Frame} {d : Half} (h : s.Adopted t f d) :
    t.mem.state = .joining ∧ t.mem.pendingJoin = true ∧ t.mem.pendingFound = false ∧ t.mem.listen = .stopped ∧
      t.order.step = .inStep ∧ t.order.expected = f.seq + 1 ∧ t.order.rxRun = 0 ∧ t.order.ownRun = 0 ∧
      t.table = Table.empty ∧ t.roster.digest = some d ∧
      (∀ n : StationNo, t.roster.members[n] = if n = f.sender then
        some { joinedAt := f.seq, lastTaken := f.seq } else none) ∧
      t.pres.absence[f.sender] = .running s.cfg.absenceTime ∧ t.cu = CatchUp.idle ∧ t.cfg = s.cfg ∧
      t.mem.ownDigest = s.mem.ownDigest := by
  obtain ⟨mem, order, table, roster, absence, cu, cfg⟩ := h
  rw [mem, order, roster]
  exact ⟨rfl, rfl, rfl, rfl, rfl, rfl, rfl, rfl, table, rfl, fun n => Roster.add_empty_members f.sender n f.seq, absence, cu,
    cfg, rfl⟩

theorem State.heardFrom_evictFlag {s : State} {x : StationNo} (calm : ∀ n : StationNo, s.pres.evictFlag n = false)
    (n : StationNo) : (s.heardFrom x).pres.evictFlag n = false := by
  refine decide_eq_false fun expired => ?_
  rw [State.heardFrom_absence] at expired
  split at expired
  · cases expired
  · exact of_decide_eq_false (calm n) expired

/-! ### The hold-back queue (R117) -/

section HoldBack

variable {q : List Held} {h newest : Held} (last : q.getLast? = some newest)

include last

theorem holdBackAppend_of_newer (ahead : 1 ≤ (h.frame.seq - newest.frame.seq).toNat)
    (half : (h.frame.seq - newest.frame.seq).toNat ≤ 32767) :
    holdBackAppend q h = (if 16 ≤ q.length then q.drop 1 else q) ++ [h] := by
  have newer : later h.frame.seq newest.frame.seq = true := by
    rw [later, decide_eq_true ahead, decide_eq_true half]
    rfl
  simp only [holdBackAppend, last, newer, if_true]
  rfl

theorem holdBackAppend_of_not_newer
    (apart : (h.frame.seq - newest.frame.seq).toNat = 0 ∨ 32768 ≤ (h.frame.seq - newest.frame.seq).toNat) :
    holdBackAppend q h = [h] := by
  have older : later h.frame.seq newest.frame.seq = false := by
    rw [later, Bool.and_eq_false_iff, decide_eq_false_iff_not, decide_eq_false_iff_not]
    omega
  simp only [holdBackAppend, last, older, Bool.false_eq_true, if_false]

end HoldBack

/-! ### Clause by clause -/

/-- The line has no part in being out of the group. -/
theorem State.outOfGroup_withLine {u : State} (out : u.outOfGroup) (l : LineIf) : State.outOfGroup { u with line := l } := by
  obtain ⟨step, expected, table, roster, pres, cu, found, join, leave, slots, queue⟩ := out
  exact ⟨step, expected, table, roster, pres, cu, found, join, leave, slots, queue⟩

section Outcome

variable {s : State} {f : Frame} {v : Vote} {others : List Bool} (reads : s.readsSlot (.good f) v others true true)
  (calm : s.line.faulted = none)

theorem State.countsFrom_counters (s : State) (n : StationNo) :
    (s.countsFrom n).port.counters[(Counter.takenFrom n).index] = satInc s.port.counters[(Counter.takenFrom n).index] :=
  State.bump_self _ (.takenFrom n)

include reads calm

theorem frameOutcome_of_foreign_found {d : Half} (foreign : s.mem.number = some f.sender) (body : f.body = .found d)
    (adopts : s.order.step = .off ∧ (s.mem.state = .listening ∨ s.mem.state = .founding) ∨
      s.order.step = .behind ∧ (s.mem.state = .joining ∨ s.mem.state = .member ∨ s.mem.state = .leaving)) :
    exec (.frameOutcome others) s = .next
      { ((((s.countsFrom f.sender).recorded f.seq).adoptGroup f.sender d f.seq).emit
          { kind := .duplicate, seq := some f.seq, cause := some (.kind .found) }).putOut .isolated .duplicate .duplicate
            (some f.seq) (some f.seq) .lost with line := s.line.toQuiet } := by
  have told : duplicateEvent f = { kind := .duplicate, seq := some f.seq, cause := some (.kind .found) } := by
    rw [duplicateEvent, body]
    rfl
  rw [exec_frameOutcome_of_taken reads calm, taken_of_found body (by exact adopts), adopt_of_foreign (by exact foreign), told,
    State.heardFrom_of_not_member]
  rw [State.putOut_frame]
  exact Roster.empty_isMember _

/-- R87: a station outside the group, or JOINING, adopts. -/
theorem frameOutcome_adopts {d : Half} (peer : s.mem.number ≠ some f.sender) (body : f.body = .found d)
    (adopts : s.order.step = .off ∧ (s.mem.state = .listening ∨ s.mem.state = .founding) ∨
      s.order.step = .behind ∧ s.mem.state = .joining) :
    ∃ (t : State) (l : LineIf), exec (.frameOutcome others) s = .next { t with line := l } ∧ ((s.countsFrom f.sender).recorded f.seq).Adopted t f d ∧ t.slots = s.slots ∧
      t.port.events = if s.mem.state = .joining then s.port.events
        else s.eventsWith [stateEvent .joining .adopted (some f.seq)] := by
  have outside : s.mem.state = .listening ∨ s.mem.state = .founding ∨ s.mem.state = .joining := by tauto
  have next := exec_frameOutcome_of_taken reads calm
  rw [taken_of_found body (by exact adopts.imp_right fun ⟨behind, joining⟩ => ⟨behind, .inl joining⟩),
    adopt_of_outside d (by exact peer) (by exact outside)] at next
  generalize counts : (s.countsFrom f.sender).recorded f.seq = w at next
  have peer : w.mem.number ≠ some f.sender := by rw [← counts]; exact peer
  have adopted := (State.adoptJoining_adopted d peer).heardFrom
  have heard := (w.adoptJoining f d).heardFrom_eq f.sender
  have slots := (congrArg (·.slots) heard).trans (congrArg (·.slots) (w.adoptJoining_frame f d))
  have port := (congrArg (·.port) heard).trans (w.adoptJoining_port f d)
  generalize State.heardFrom _ _ = t at *
  subst counts
  refine ⟨t, _, next, adopted, slots, (congrArg (·.events) port).trans ?_⟩
  split
  · next joining => rw [if_pos (by exact joining)]; rfl
  · next other =>
    rw [if_neg (by exact other)]
    apply Port.append_events_congr
    rfl

/-- R88, R160: a MEMBER adopts, and its slots end. -/
theorem frameOutcome_member_adopts {d : Half} (peer : s.mem.number ≠ some f.sender) (body : f.body = .found d)
    (behind : s.order.step = .behind) (member : s.mem.state = .member) :
    ∃ (t : State) (l : LineIf), exec (.frameOutcome others) s = .next { t with line := l } ∧
      ((s.countsFrom f.sender).recorded f.seq).Adopted t f d ∧
      (∀ k : Tag, t.slots.slots[k] = Slot.empty) ∧
      t.port.events = s.eventsWith
        (stateEvent .joining .adopted (some f.seq) :: s.slotEnds .lost .adopted (some f.seq)) := by
  have next := exec_frameOutcome_of_taken reads calm
  rw [taken_of_found body (by exact .inr ⟨behind, .inr (.inl member)⟩), adopt_of_member d (by exact peer) (by exact member)]
    at next
  generalize counts : (s.countsFrom f.sender).recorded f.seq = w at next
  have peer : w.mem.number ≠ some f.sender := by rw [← counts]; exact peer
  have adopted := ((State.adoptJoining_adopted d peer).clearSlots .lost .adopted (some f.seq)).heardFrom
  have port := w.adoptJoining_port f d
  have slots := congrArg (·.slots) (w.adoptJoining_frame f d)
  generalize w.adoptJoining f d = y at *
  have heard := (y.clearSlots .lost .adopted (some f.seq)).heardFrom_eq f.sender
  have empty := y.clearSlots_slot .lost .adopted (some f.seq)
  have events := y.clearSlots_events .lost .adopted (some f.seq)
  generalize y.clearSlots .lost .adopted (some f.seq) = z at *
  generalize z.heardFrom f.sender = t at *
  subst counts
  refine ⟨t, _, next, adopted,
    fun k => ?_, ?_⟩
  · rw [heard]
    exact empty k
  · rw [heard]
    refine events.trans ?_
    have ends : y.slotEnds .lost .adopted (some f.seq) = s.slotEnds .lost .adopted (some f.seq) := by
      simp only [State.slotEnds, slots]
      rfl
    rw [ends, ← State.eventsWith_emit]
    apply State.eventsWith_congr
    rw [port, if_neg (by change s.mem.state ≠ .joining; simp [member])]
    apply Port.append_events_congr
    rfl

/-- R88, R96: a LEAVING station that would adopt is out of the group instead. -/
theorem frameOutcome_leaving_adopts {d : Half} (peer : s.mem.number ≠ some f.sender) (body : f.body = .found d)
    (behind : s.order.step = .behind) (leaving : s.mem.state = .leaving) :
    ∃ (t : State) (l : LineIf), exec (.frameOutcome others) s = .next { t with line := l } ∧ t.mem.state = .detached ∧ t.outOfGroup ∧
      t.port.events = s.eventsWith
        (stateEvent .detached .dissolved (some f.seq) :: s.slotEnds .lost .dissolved (some f.seq)) := by
  have next := exec_frameOutcome_of_taken reads calm
  rw [taken_of_found body (by exact .inr ⟨behind, .inr (.inr leaving)⟩), adopt_of_leaving d (by exact peer) (by exact leaving),
    State.heardFrom_of_not_member (by rw [State.putOut_frame]; exact Roster.empty_isMember _)] at next
  generalize counts : ((s.countsFrom f.sender).recorded f.seq).adoptGroup f.sender d f.seq = w at next
  have frame := w.putOut_frame .detached .dissolved .dissolved (some f.seq) (some f.seq) .lost
  have out := w.putOut_outOfGroup .detached .dissolved .dissolved (some f.seq) (some f.seq) .lost
  have events := w.putOut_events .detached .dissolved .dissolved (some f.seq) (some f.seq) .lost
  generalize w.putOut .detached .dissolved .dissolved (some f.seq) (some f.seq) .lost = t at *
  refine ⟨t, _, next, congrArg (·.mem.state) frame, out, events.trans ?_⟩
  rw [← counts]
  apply State.eventsWith_congr
  rfl

/-- R84: a LISTENING or FOUNDING station that hears another frame goes JOINING and BEHIND. -/
theorem frameOutcome_listener_hears (other : f.body.kind ≠ .found) (off : s.order.step = .off)
    (listens : s.mem.state = .listening ∨ s.mem.state = .founding) :
    ∃ (t : State) (l : LineIf), exec (.frameOutcome others) s = .next { t with line := l } ∧
      t = { s with
        line := t.line
        mem := { s.mem with
          state := .joining, listen := .stopped, pendingFound := false, pendingJoin := false, pendingLeave := false }
        order := { s.order.toBehind with lastHeard := some f.seq }
        pres := t.pres
        cu := { CatchUp.idle with
          phase := .requesting, syncreqPending := true, holdBack := [{ frame := f, own := false }] }
        port := t.port } ∧
      t.port.events = s.eventsWith [stateEvent .joining .heard (some f.seq)] := by
  have moved : s.mem.state ≠ .joining := by obtain state | state := listens <;> rw [state] <;> simp
  have next := exec_frameOutcome_of_taken reads calm
  rw [taken_of_listens (by exact off) (by exact listens), hearTaken_of_other other, State.heardFrom_eq,
    enterBehind_eq _ (by rw [enterJoining_eq]; change s.order.step ≠ .behind; simp [off]), enterJoining_eq] at next
  refine ⟨_, _, next, rfl, ?_⟩
  refine (congrArg Port.events (enterJoining_port ..)).trans ?_
  rw [if_neg (by exact moved)]
  apply Port.append_events_congr
  rfl

/-- R117: a BEHIND station holds another frame back. -/
theorem frameOutcome_holds_back (other : f.body.kind ≠ .found) (behind : s.order.step = .behind)
    (follows : s.mem.state = .joining ∨ s.mem.state = .member ∨ s.mem.state = .leaving) :
    ∃ (t : State) (l : LineIf), exec (.frameOutcome others) s = .next { t with line := l } ∧
      t = { s with
        line := t.line
        order := { s.order with lastHeard := some f.seq }
        pres := t.pres
        cu := { s.cu with
          holdBack := holdBackAppend s.cu.holdBack { frame := f, own := false }
          wait := if decide (s.order.lastHeard = none) && decide (s.cu.phase = .requesting) then .stopped else s.cu.wait }
        port := (s.countsFrom f.sender).port } := by
  have next := exec_frameOutcome_of_taken reads calm
  rw [taken_of_behind_other (by exact behind)
    (by change s.mem.state.records = true; obtain state | state | state := follows <;> rw [state] <;> rfl) other,
    State.heardFrom_eq] at next
  exact ⟨_, _, next, rfl⟩

/-- R43, R116: an IN_STEP station whose ACCEPT was by case 5 goes BEHIND. -/
theorem frameOutcome_goes_behind (later : v = .acceptLater) (inStep : s.order.step = .inStep)
    (follows : s.mem.state = .joining ∨ s.mem.state = .member ∨ s.mem.state = .leaving) :
    ∃ (t : State) (l : LineIf), exec (.frameOutcome others) s = .next { t with line := l } ∧
      t = { s with
        line := t.line
        order := { s.order.toBehind with lastHeard := some f.seq }
        pres := t.pres
        cu := { CatchUp.idle with
          phase := .requesting, syncreqPending := true, holdBack := [{ frame := f, own := false }] }
        port := (s.countsFrom f.sender).port } ∧
      t.pres.beat = .stopped ∧ t.pres.beatPending = false ∧ ∀ n : StationNo, t.pres.evictFlag n = false := by
  have next := exec_frameOutcome_of_taken reads calm
  subst later
  rw [taken_of_acceptLater (by exact inStep)
    (by change s.mem.state.records = true; obtain state | state | state := follows <;> rw [state] <;> rfl),
    enterBehind_eq _ (by change s.order.step ≠ .behind; simp [inStep]), State.heardFrom_eq] at next
  refine ⟨_, _, next, rfl, (State.heardFrom_beat _ _).1, (State.heardFrom_beat _ _).2, 
    State.heardFrom_evictFlag fun n => ?_⟩
  exact s.pres.quiesce_evictFlag s.cfg.absenceTime n

end Outcome

/-- Settles O36. -/
theorem listeningStationFollowsATakenFrame : Obligations.ListeningStationFollowsATakenFrame := by
  refine ⟨fun s r v others reads calm bad out => ?_, fun s f v others reads calm => ?_⟩
  · rw [exec_frameOutcome_of_reads reads calm]
    obtain rfl | rfl := bad <;> rfl
  · refine ⟨fun off out member => ?_, fun foreign d body adopts => ?_, ?_, fun behind peer d body => ⟨?_, ?_, ?_⟩, ?_, ?_⟩
    · rw [exec_frameOutcome_of_taken reads calm, taken_of_out (by exact off) (by exact out),
        State.heardFrom_of_not_member (by exact member)]
      rfl
    · refine ⟨_, frameOutcome_of_foreign_found reads calm foreign body adopts, ?_⟩
      generalize adopts : State.emit _ _ = x
      have frame := x.putOut_frame .isolated .duplicate .duplicate (some f.seq) (some f.seq) .lost
      have out := x.putOut_outOfGroup .isolated .duplicate .duplicate (some f.seq) (some f.seq) .lost
      have events := x.putOut_events .isolated .duplicate .duplicate (some f.seq) (some f.seq) .lost
      have counters := x.putOut_counters .isolated .duplicate .duplicate (some f.seq) (some f.seq) .lost
      generalize x.putOut .isolated .duplicate .duplicate (some f.seq) (some f.seq) .lost = t at *
      refine ⟨congrArg (·.mem.state) frame, congrArg (·.mem.listen) frame, State.outOfGroup_withLine out _, ?_, ?_, ?_⟩
      · refine (congrArg (·.order.lastHeard) frame).trans ?_
        rw [← adopts]
        rfl
      · refine (congrArg (·[_]) counters).trans ?_
        rw [← adopts]
        exact (congrArg (·[_]) (Port.append_counters ..)).trans (s.countsFrom_counters f.sender)
      · refine events.trans ?_
        rw [← adopts]
        rw [State.eventsWith_emit]
        apply State.eventsWith_congr
        rfl
    · intro off listens
      refine ⟨fun peer d body => ?_, fun other => ?_⟩
      · obtain ⟨t, l, next, adopted, slots, events⟩ := frameOutcome_adopts reads calm peer body (.inl ⟨off, listens⟩)
        refine ⟨_, next, adopted.fields, slots, events.trans (if_neg ?_)⟩
        obtain state | state := listens <;> rw [state] <;> simp
      · obtain ⟨t, l, next, frame, events⟩ := frameOutcome_listener_hears reads calm other off listens
        refine ⟨_, next, ?_, ?_⟩
        · exact ⟨congrArg (·.order.step) frame, congrArg (·.order.lastHeard) frame, congrArg (·.order.expected) frame,
            congrArg (·.cu) frame, congrArg (·.table) frame, congrArg (·.roster) frame, congrArg (·.slots) frame,
            congrArg (·.cfg) frame⟩
        · exact ⟨congrArg (·.mem.state) frame, congrArg (·.mem.pendingJoin) frame, congrArg (·.mem.pendingFound) frame,
            congrArg (·.mem.listen) frame, events⟩
    · intro joining
      obtain ⟨t, l, next, adopted, slots, events⟩ := frameOutcome_adopts reads calm peer body (.inr ⟨behind, joining⟩)
      exact ⟨_, next, adopted.fields, slots, events.trans (if_pos joining)⟩
    · intro member
      obtain ⟨t, l, next, adopted, slots, events⟩ := frameOutcome_member_adopts reads calm peer body behind member
      refine ⟨_, next, adopted.fields, slots, fun free => events.trans ?_⟩
      rw [State.slotEnds_of_free _ _ _ _ free]
      rfl
    · intro leaving
      obtain ⟨t, l, next, state, out, events⟩ := frameOutcome_leaving_adopts reads calm peer body behind leaving
      obtain ⟨step, _, table, roster, pres, cu, _, join, leave, slots, _⟩ := out
      refine ⟨_, next, state, leave, join, step, table, roster, pres, cu, slots, fun free => events.trans ?_⟩
      rw [State.slotEnds_of_free _ _ _ _ free]
      rfl
    · intro behind other follows
      obtain ⟨t, l, next, frame⟩ := frameOutcome_holds_back reads calm other behind follows
      have held : t.cu.holdBack = holdBackAppend s.cu.holdBack { frame := f, own := false } := congrArg (·.cu.holdBack) frame
      have wait := congrArg (·.cu.wait) frame
      refine ⟨_, next, congrArg (·.order) frame, congrArg (·.table) frame, congrArg (·.roster) frame, congrArg (·.slots) frame,
        congrArg (·.mem) frame, congrArg (·.port.events) frame, ?_, ?_, ?_, ?_, ?_⟩
      · rw [held, wait]
        exact congrArg (·.cu) frame
      · exact fun unheard requesting => wait.trans (if_pos (by simp [unheard, requesting]))
      · exact fun other => wait.trans (if_neg (by obtain heard | other := other <;> simp [*]))
      · intro empty
        rw [held, empty]
        rfl
      · refine fun newest last => ⟨fun ahead half few => ?_, fun ahead half full => ?_, fun apart => ?_⟩
        · rw [held, holdBackAppend_of_newer last ahead half, if_neg (by omega)]
        · rw [held, holdBackAppend_of_newer last ahead half, if_pos full]
        · rw [held, holdBackAppend_of_not_newer last apart]
    · intro inStep later follows
      obtain ⟨t, l, next, frame, beat, pending, flags⟩ := frameOutcome_goes_behind reads calm later inStep follows
      refine ⟨_, next, ?_, ?_⟩
      · exact ⟨congrArg (·.order.step) frame, congrArg (·.order.lastHeard) frame, congrArg (·.order.expected) frame,
          congrArg (·.cu) frame, congrArg (·.table) frame, congrArg (·.roster) frame, congrArg (·.slots) frame,
          congrArg (·.cfg) frame⟩
      · exact ⟨congrArg (·.order.rxRun) frame, congrArg (·.order.ownRun) frame, congrArg (·.mem) frame,
          congrArg (·.port.events) frame, beat, pending, flags⟩

end Sys2Proof.Machine

/-! # Reports settle the slots, row by row (R147, R151, R154) -/

namespace Sys2Proof.Machine

/-! ### One slot takes its row -/

theorem State.settled_settled (s : State) (first second : SlotUnit) (es later : List Event) :
    (s.settled first es).settled second later = s.settled second (es ++ later) := by
  unfold State.settled
  rw [← State.tells_tells]
  rfl

theorem State.settled_self (s : State) : s.settled s.slots [] = s := rfl

/-- The slot unit once a slot has taken a row: the slot after it, its events, and whether its entry leaves the queue. -/
def SlotUnit.takes (u : SlotUnit) (t : Tag) (row : Slot × List Event × Bool) : SlotUnit :=
  { (if row.2.2 then u.dropEntryOf t else u) with slots := u.slots.set t row.1 }

/-- A slot takes a row. -/
def State.takesRow (s : State) (t : Tag) (row : Slot × List Event × Bool) : State := s.settled (s.slots.takes t row) row.2.1

theorem SlotUnit.takes_self (u : SlotUnit) (t : Tag) : u.takes t (u.slots[t], [], false) = u := by
  simp [SlotUnit.takes]

theorem State.takesRow_self (s : State) (t : Tag) : s.takesRow t (s.slots.slots[t], [], false) = s := by
  rw [State.takesRow, SlotUnit.takes_self]
  rfl

theorem Slot.toHeld_eq (x : Slot) (granted : Option Seq) : x.toHeld granted = x.heldSince granted := by
  simp only [Slot.toHeld, Timer.startNonzero]

section Rows

variable (s : State) (t : Tag) (seq : Seq)

/-- R154: the removal of the record of a slot. -/
theorem ownRemoved_eq : s.ownRemoved t seq = s.takesRow t (removalRow t s.slots.slots[t] (s.slotOnLine t) seq) := by
  have still := s.takesRow_self t
  have slot : s.slot t = s.slots.slots[t] := rfl
  cases state : (s.slots.slots[t]).state <;> cases onLine : s.slotOnLine t <;>
    simp only [State.ownRemoved, slot, state, onLine, removalRow] <;>
    first
    | exact still.symm
    | rfl

/-- R151: the grant of the record of a slot. -/
theorem ownGrant_eq : s.ownGrant t seq = s.takesRow t (grantRow t s.slots.slots[t] (s.slotOnLine t) seq) := by
  have still := s.takesRow_self t
  have slot : s.slot t = s.slots.slots[t] := rfl
  cases state : (s.slots.slots[t]).state with
  | waiting =>
    simp only [State.ownGrant, slot, state, grantRow, Slot.toHeld_eq]
    rfl
  | cancelling =>
    cases onLine : s.slotOnLine t with
    | false => simp only [State.ownGrant, slot, state, onLine, grantRow, Slot.toHeld_eq]; rfl
    | true =>
      by_cases mark : (s.slots.slots[t]).mark = .releaseAfter
      · simp only [State.ownGrant, slot, state, onLine, grantRow, mark, if_true, Slot.toReleasing]
        rw [← mark]
        rfl
      · simp only [State.ownGrant, slot, state, onLine, grantRow, if_neg mark, Slot.toHeld_eq]
        rfl
  | releasing =>
    simp only [State.ownGrant, slot, state, grantRow]
    rfl
  | _ =>
    simp only [State.ownGrant, slot, state, grantRow]
    exact still.symm

end Rows

/-! ### Slots with different tags take their rows side by side -/

/-- What a rule makes of a slot and of whether its entry is on the line. -/
abbrev RowRule : Type := Tag → Slot → Bool → Slot × List Event × Bool

/-- The row of a slot as the state has it. -/
def State.rowOf (s : State) (rule : RowRule) (k : Tag) : Slot × List Event × Bool :=
  rule k s.slots.slots[k] (s.slotOnLine k)

/-- The slot unit once these slots have taken their rows. -/
def State.rows (s : State) (rule : RowRule) (ts : List Tag) : SlotUnit :=
  { s.slots with
    slots := Vector.ofFn fun k => if k ∈ ts then (s.rowOf rule k).1 else s.slots.slots[k]
    queue := s.slots.queue.filter fun q => q.purged || !(decide (q.tag ∈ ts) && (s.rowOf rule q.tag).2.2) }

section Takes

variable (s : State) {t k : Tag} (other : k ≠ t) (row : Slot × List Event × Bool)

theorem SlotUnit.takes_slot (u : SlotUnit) (t k : Tag) (row : Slot × List Event × Bool) :
    (u.takes t row).slots[k] = if k = t then row.1 else u.slots[k] := by
  simp only [SlotUnit.takes, Fin.getElem_fin, Vector.getElem_set, Fin.ext_iff, eq_comm]

theorem SlotUnit.takes_eq (u : SlotUnit) (t : Tag) (row : Slot × List Event × Bool) :
    u.takes t row =
      { u with
        slots := u.slots.set t row.1
        queue := u.queue.filter fun q => q.purged || !(decide (q.tag = t) && row.2.2) } := by
  unfold SlotUnit.takes SlotUnit.dropEntryOf
  cases row.2.2
  · simp
  · simp [Bool.or_comm]

include other

theorem State.takesRow_slotOnLine : (s.takesRow t row).slotOnLine k = s.slotOnLine k := by
  have entry : (s.takesRow t row).slots.entryOf k = s.slots.entryOf k := by
    change (s.slots.takes t row).entryOf k = _
    unfold SlotUnit.takes
    cases row.2.2
    · rfl
    · exact SlotUnit.entryOf_dropEntryOf_of_ne _ other
  simp only [State.slotOnLine, entry]
  rfl

theorem State.takesRow_rowOf (rule : RowRule) : (s.takesRow t row).rowOf rule k = s.rowOf rule k := by
  have slot : (s.takesRow t row).slots.slots[k] = s.slots.slots[k] :=
    (s.slots.takes_slot t k row).trans (if_neg other)
  rw [State.rowOf, slot, State.takesRow_slotOnLine s other]
  rfl

end Takes

theorem foldl_takesRow (rule : RowRule) (ts : List Tag) (once : ts.Nodup) (s : State) :
    ts.foldl (fun u t => u.takesRow t (u.rowOf rule t)) s =
      s.settled (s.rows rule ts) (ts.flatMap fun k => (s.rowOf rule k).2.1) := by
  induction ts generalizing s with
  | nil =>
    have rows : s.rows rule [] = s.slots := by simp [State.rows]
    rw [rows]
    rfl
  | cons t ts ih =>
    obtain ⟨fresh, once⟩ := List.nodup_cons.1 once
    have same {k : Tag} (mem : k ∈ ts) : (s.takesRow t (s.rowOf rule t)).rowOf rule k = s.rowOf rule k :=
      s.takesRow_rowOf (by rintro rfl; exact fresh mem) _ rule
    have events : (ts.flatMap fun k => ((s.takesRow t (s.rowOf rule t)).rowOf rule k).2.1) =
        ts.flatMap fun k => (s.rowOf rule k).2.1 := by
      simp only [List.flatMap]
      congr 1
      exact List.map_congr_left fun k mem => by rw [same mem]
    have rows : (s.takesRow t (s.rowOf rule t)).rows rule ts = s.rows rule (t :: ts) := by
      have unit : (s.takesRow t (s.rowOf rule t)).slots = s.slots.takes t (s.rowOf rule t) := rfl
      simp only [State.rows, unit, SlotUnit.takes_eq, SlotUnit.mk.injEq, and_true, List.filter_filter]
      constructor
      · refine Vector.ext fun i less => ?_
        rw [Vector.getElem_ofFn, Vector.getElem_ofFn]
        obtain ⟨k, rfl⟩ : ∃ k : Tag, k.val = i := ⟨⟨i, less⟩, rfl⟩
        have slot := s.slots.takes_slot t k (s.rowOf rule t)
        rw [SlotUnit.takes_eq] at slot
        by_cases mem : k ∈ ts
        · rw [if_pos mem, if_pos (List.mem_cons_of_mem _ mem), same mem]
        · rw [if_neg mem]
          refine slot.trans ?_
          by_cases here : k = t
          · subst here
            rw [if_pos rfl, if_pos List.mem_cons_self]
          · rw [if_neg here, if_neg (by simp [here, mem])]
      · refine List.filter_congr fun q _ => ?_
        by_cases mem : q.tag ∈ ts
        · have other : q.tag ≠ t := by rintro rfl; exact fresh mem
          simp [mem, same mem, other]
        · by_cases here : q.tag = t <;> simp [mem, here, fresh]
    rw [List.foldl_cons, ih once, events, rows, State.takesRow, State.settled_settled, List.flatMap_cons]

/-! ### A report about other frames (R147) -/

/-- R151, R154: the rows of a report: removals first. -/
def reportRule (seq : Seq) (gone : List Tag) : RowRule := fun k x onLine =>
  if k ∈ gone then removalRow k x onLine seq else grantRow k x onLine seq

theorem foldl_ownRemoved (seq : Seq) (gone : List Tag) (ts : List Tag) (among : ∀ t ∈ ts, t ∈ gone) (s : State) :
    ts.foldl (fun u t => u.ownRemoved t seq) s =
      ts.foldl (fun u t => u.takesRow t (u.rowOf (reportRule seq gone) t)) s := by
  induction ts generalizing s with
  | nil => rfl
  | cons t ts ih =>
    have row : s.ownRemoved t seq = s.takesRow t (s.rowOf (reportRule seq gone) t) := by
      rw [ownRemoved_eq, State.rowOf, reportRule, if_pos (among t List.mem_cons_self)]
    rw [List.foldl_cons, List.foldl_cons, row, ih fun k mem => among k (List.mem_cons_of_mem _ mem)]

theorem foldl_ownGrant (seq : Seq) (gone : List Tag) (ts : List Tag) (apart : ∀ t ∈ ts, t ∉ gone) (s : State) :
    ts.foldl (fun u t => u.ownGrant t seq) s =
      ts.foldl (fun u t => u.takesRow t (u.rowOf (reportRule seq gone) t)) s := by
  induction ts generalizing s with
  | nil => rfl
  | cons t ts ih =>
    have row : s.ownGrant t seq = s.takesRow t (s.rowOf (reportRule seq gone) t) := by
      rw [ownGrant_eq, State.rowOf, reportRule, if_neg (apart t List.mem_cons_self)]
    rw [List.foldl_cons, List.foldl_cons, row, ih fun k mem => apart k (List.mem_cons_of_mem _ mem)]

/-- R147: removals and grants of different slots, each with its row. -/
theorem foldl_report (seq : Seq) (gone granted : List Tag) (once : (gone ++ granted).Nodup) (s : State) :
    granted.foldl (fun u t => u.ownGrant t seq) (gone.foldl (fun u t => u.ownRemoved t seq) s) =
      s.settled (s.rows (reportRule seq gone) (gone ++ granted))
        ((gone ++ granted).flatMap fun k => (s.rowOf (reportRule seq gone) k).2.1) := by
  have apart : ∀ t ∈ granted, t ∉ gone := fun t mem also => (List.nodup_append.1 once).2.2 t also t mem rfl
  rw [foldl_ownRemoved seq gone gone fun _ mem => mem, foldl_ownGrant seq gone granted apart, ← List.foldl_append,
    foldl_takesRow _ _ once]

/-! ### The report's tags of this station (R147) -/

/-- R147: step 2 is for this record. -/
def State.minesRemoved (s : State) (f : Frame) (own : Bool) (r : Record) : Bool :=
  s.isMe r.owner && !(own && decide (f.body.kind = .release ∨ f.body.kind = .withdraw))

/-- R147: step 3 is for this grant. -/
def State.minesGrant (s : State) (f : Frame) (own : Bool) (g : StationNo × Tag) : Bool :=
  s.isMe g.1 &&
    !(own && (match f.body with
      | .claim tag .. => decide (tag.toNat = g.2.val)
      | _ => false))

/-- R147: the removed records that step 2 is for, by their tags. -/
def State.goneTags (s : State) (f : Frame) (own : Bool) (rep : Report) : List Tag :=
  (rep.removed.filter (s.minesRemoved f own)).map Record.tag

/-- R147: the grants that step 3 is for, by their tags. -/
def State.grantedTags (s : State) (f : Frame) (own : Bool) (rep : Report) : List Tag :=
  (rep.grants.filter (s.minesGrant f own)).map Prod.snd

section Reported

variable (f : Frame) (own : Bool)

theorem foldl_settleRemoved (removed : List Record) {s u : State} (same : u.mem.number = s.mem.number) :
    removed.foldl (State.settleRemoved f own) u =
      ((removed.filter (s.minesRemoved f own)).map Record.tag).foldl (fun u t => u.ownRemoved t f.seq) u := by
  induction removed generalizing u with
  | nil => rfl
  | cons r rest ih =>
    have mine : State.settleRemoved f own u r = if s.minesRemoved f own r then u.ownRemoved r.tag f.seq else u := by
      simp only [State.settleRemoved, State.minesRemoved, State.isMe, same]
      rfl
    rw [List.foldl_cons, mine]
    by_cases here : s.minesRemoved f own r = true
    · rw [if_pos here, List.filter_cons_of_pos here, List.map_cons, List.foldl_cons]
      refine ih ?_
      rw [ownRemoved_eq]
      exact same
    · rw [if_neg here, List.filter_cons_of_neg here]
      exact ih same

theorem foldl_settleGrant (grants : List (StationNo × Tag)) {s u : State} (same : u.mem.number = s.mem.number) :
    grants.foldl (State.settleGrant f own) u =
      ((grants.filter (s.minesGrant f own)).map Prod.snd).foldl (fun u t => u.ownGrant t f.seq) u := by
  induction grants generalizing u with
  | nil => rfl
  | cons g rest ih =>
    have mine : State.settleGrant f own u g = if s.minesGrant f own g then u.ownGrant g.2 f.seq else u := by
      simp only [State.settleGrant, State.minesGrant, State.isMe, same]
      rfl
    rw [List.foldl_cons, mine]
    by_cases here : s.minesGrant f own g = true
    · rw [if_pos here, List.filter_cons_of_pos here, List.map_cons, List.foldl_cons]
      refine ih ?_
      rw [ownGrant_eq]
      exact same
    · rw [if_neg here, List.filter_cons_of_neg here]
      exact ih same

theorem State.settleOwn_number (s : State) (rep : Report) (entry : Option Tag) :
    (s.settleOwn f rep entry).mem.number = s.mem.number :=
  congrArg (·.mem.number) (settleOwn_slotRest s f rep entry)

theorem foldl_ownRemoved_number (s : State) (ts : List Tag) :
    (ts.foldl (fun u t => u.ownRemoved t f.seq) s).mem.number = s.mem.number :=
  congrArg (·.mem.number) (foldl_slotRest _ (fun u t => ownRemoved_slotRest u t f.seq) ts s)

/-- R147: the outcome of an own frame's entry, then removals, then grants. -/
theorem settleReport_eq (s : State) (entry : Option Tag) (rep : Report) :
    s.settleReport f own entry rep =
      (s.grantedTags f own rep).foldl (fun u t => u.ownGrant t f.seq)
        ((s.goneTags f own rep).foldl (fun u t => u.ownRemoved t f.seq) (if own then s.settleOwn f rep entry else s)) := by
  have same : (if own then s.settleOwn f rep entry else s).mem.number = s.mem.number := by
    split
    · exact s.settleOwn_number f rep entry
    · rfl
  rw [State.settleReport, foldl_settleRemoved f own rep.removed same, foldl_settleGrant f own rep.grants]
  · rfl
  · exact (foldl_ownRemoved_number f _ _).trans same

/-- R147: a report with nothing of this station. -/
theorem settleReport_of_elsewhere {s : State} {rep : Report} (gone : s.goneTags f own rep = [])
    (granted : s.grantedTags f own rep = []) (entry : Option Tag) :
    s.settleReport f own entry rep = if own then s.settleOwn f rep entry else s := by
  rw [settleReport_eq, gone, granted]
  rfl

/-- R147: each own record of a report about other frames takes its row. -/
theorem settleReport_rows {s : State} {rep : Report} (once : (s.goneTags f own rep ++ s.grantedTags f own rep).Nodup)
    (entry : Option Tag) :
    s.settleReport f own entry rep =
      let u := if own then s.settleOwn f rep entry else s
      let rule := reportRule f.seq (s.goneTags f own rep)
      let ts := s.goneTags f own rep ++ s.grantedTags f own rep
      u.settled (u.rows rule ts) (ts.flatMap fun k => (u.rowOf rule k).2.1) := by
  rw [settleReport_eq, foldl_report f.seq _ _ once]

end Reported

/-- From `s` to `t` slots and events alone have changed. -/
def State.SettlesFrom (s t : State) : Prop := ∃ slots es, t = s.settled slots es

namespace State.SettlesFrom

theorem refl (s : State) : s.SettlesFrom s := ⟨_, [], rfl⟩

theorem trans {s t u : State} (first : s.SettlesFrom t) (second : t.SettlesFrom u) : s.SettlesFrom u := by
  obtain ⟨_, es, rfl⟩ := first
  obtain ⟨slots, later, rfl⟩ := second
  exact ⟨slots, es ++ later, State.settled_settled ..⟩

theorem foldl {α : Type} {g : State → α → State} (each : ∀ (u : State) (a : α), u.SettlesFrom (g u a)) (l : List α) (s : State) :
    s.SettlesFrom (l.foldl g s) := by
  induction l generalizing s with
  | nil => exact .refl s
  | cons a l ih => exact (each s a).trans (ih _)

theorem ownRemoved (s : State) (t : Tag) (q : Seq) : s.SettlesFrom (s.ownRemoved t q) := ⟨_, _, ownRemoved_eq s t q⟩

theorem ownGrant (s : State) (t : Tag) (q : Seq) : s.SettlesFrom (s.ownGrant t q) := ⟨_, _, ownGrant_eq s t q⟩

theorem settleReport (s : State) (f : Frame) (entry : Option Tag) (rep : Report) :
    s.SettlesFrom (s.settleReport f false entry rep) := by
  rw [settleReport_eq]
  exact (foldl (fun u t => ownRemoved u t f.seq) _ _).trans (foldl (fun u t => ownGrant u t f.seq) _ _)

theorem counters {s t : State} (h : s.SettlesFrom t) : t.port.counters = s.port.counters := by
  obtain ⟨slots, es, rfl⟩ := h
  exact s.tells_counters es

end State.SettlesFrom

end Sys2Proof.Machine

/-! # A report names each record once (R4, R9) -/

namespace Sys2Proof.Machine

/-- R2: what names a record. -/
def Record.key (r : Record) : StationNo × Tag := (r.owner, r.tag)

theorem Walk.foldl_grants (cap : Nat) (seq : Seq) (rest : List Record) (w : Walk) :
    ∃ more, (rest.foldl (Walk.visit cap seq) w).grants = w.grants ++ more ∧ more.Sublist (rest.map Record.key) := by
  induction rest generalizing w with
  | nil => exact ⟨[], (List.append_nil _).symm, .slnil⟩
  | cons r rest ih =>
    obtain ⟨more, grants, sub⟩ := ih (w.visit cap seq r)
    rw [List.foldl_cons, grants]
    obtain ⟨_, visit⟩ | ⟨_, _, _, visit⟩ | ⟨_, _, visit⟩ := w.visit_cases cap seq r <;> rw [visit]
    · exact ⟨more, rfl, sub.cons _⟩
    · exact ⟨r.key :: more, by simp [Walk.grant, Record.key], sub.cons_cons _⟩
    · exact ⟨more, rfl, sub.cons _⟩

theorem Table.evaluate_grants (t : Table) (cap : Nat) (seq : Seq) :
    (t.evaluate cap seq).2.Sublist (t.records.map Record.key) := by
  obtain ⟨more, grants, sub⟩ := Walk.foldl_grants cap seq t.records t.walkStart
  have none_ : t.walkStart.grants = [] := rfl
  rw [none_, List.nil_append] at grants
  have eq : (t.evaluate cap seq).2 = more := grants
  rwa [eq]

/-- R4: no owner and tag twice among what a report removes and grants. -/
def Report.NamesOnce (rep : Report) : Prop := (rep.removed.map Record.key ++ rep.grants).Nodup

section Once

variable {cfg : Cfg} {t : Table} (h : t.ok cfg)

theorem Report.namesOnce_of_idle {rep : Report} (removed : rep.removed = []) (grants : rep.grants = []) : rep.NamesOnce := by
  rw [Report.NamesOnce, removed, grants]
  exact List.nodup_nil

include h

theorem Table.ok.keys : (t.records.map Record.key).Nodup := ((Table.ok_iff cfg t).1 h).2.1

theorem Table.ok.removeAndEvaluate_namesOnce (cap : Nat) (seq : Seq) (p : Record → Bool) (tag : Option TagOutcome) :
    (t.removeAndEvaluate cap seq p tag).2.NamesOnce := by
  obtain ⟨_, same⟩ | ⟨_, removed⟩ := t.removeAndEvaluate_cases cap seq p tag
  · rw [same]
    exact Report.namesOnce_of_idle rfl rfl
  · rw [removed]
    have sub := (t.remove p).1.evaluate_grants cap seq
    have both := ((List.filter_append_perm p t.records).map Record.key).nodup_iff.2 h.keys
    rw [List.map_append] at both
    exact both.sublist ((List.Sublist.refl _).append sub)

theorem Table.ok.apply_namesOnce (isMember : StationNo → Bool) (f : Frame) : (t.apply cfg isMember f).2.NamesOnce := by
  have still (tag : Option TagOutcome) : Report.NamesOnce { tag := tag } := Report.namesOnce_of_idle rfl rfl
  simp only [Table.apply]
  split
  · next tag zp lo hi units _ =>
    by_cases out : t.admission cfg (isMember f.sender) f.sender tag zp lo hi units = .admitted
    · rw [Table.applyClaim_of_admitted out]
      cases member : isMember f.sender
      · rw [member, Table.admission_of_nonmember] at out
        cases out
      · rw [member] at out
        have grown := h.admitted out f.seq
        exact grown.keys.sublist (Table.evaluate_grants _ _ _)
    · rw [Table.applyClaim_of_not_admitted out rfl]
      exact Report.namesOnce_of_idle rfl rfl
  · exact h.removeAndEvaluate_namesOnce _ _ _ _
  · repeat' split
    · exact still _
    · exact still _
    · exact h.removeAndEvaluate_namesOnce _ _ _ _
  · split
    · exact h.removeAndEvaluate_namesOnce _ _ _ _
    · exact still _
  · split
    · exact h.removeAndEvaluate_namesOnce _ _ _ _
    · exact still _
  · repeat' split
    · exact h.removeAndEvaluate_namesOnce _ _ _ _
    · exact still _
    · exact still _
  all_goals exact still _

end Once

section Mine

variable {s : State} {me : StationNo} (number : s.mem.number = some me) {rep : Report} (f : Frame) (own : Bool)

include number

theorem State.isMe_iff (x : StationNo) : s.isMe x = true ↔ x = me := by
  rw [State.isMe, number, decide_eq_true_eq, Option.some.injEq, eq_comm]

theorem State.ownTags_nodup (once : rep.NamesOnce) : (s.goneTags f own rep ++ s.grantedTags f own rep).Nodup := by
  have gone : (s.goneTags f own rep).map (Prod.mk me) = (rep.removed.filter (s.minesRemoved f own)).map Record.key := by
    rw [State.goneTags, List.map_map]
    refine List.map_congr_left fun r mem => ?_
    have mine := (List.mem_filter.1 mem).2
    rw [State.minesRemoved, Bool.and_eq_true, State.isMe_iff number] at mine
    rw [Function.comp_apply, Record.key, mine.1]
  have granted : (s.grantedTags f own rep).map (Prod.mk me) = rep.grants.filter (s.minesGrant f own) := by
    rw [State.grantedTags, List.map_map]
    refine (List.map_congr_left fun g mem => ?_).trans (List.map_id _)
    have mine := (List.mem_filter.1 mem).2
    rw [State.minesGrant, Bool.and_eq_true, State.isMe_iff number] at mine
    rw [Function.comp_apply, ← mine.1]
    rfl
  refine List.Nodup.of_map (Prod.mk me) ?_
  rw [List.map_append, gone, granted]
  exact once.sublist ((List.filter_sublist.map _).append List.filter_sublist)

end Mine

/-! ### What the obligations say of a report (R147) -/

section SettlesTo

variable {s u t : State} {me : StationNo} {seq : Seq} {removed : List Record} {grants : List (StationNo × Tag)}

theorem mem_goneKeys (k : Tag) : k ∈ (removed.filter fun r => decide (r.owner = me)).map Record.tag ↔
    (removed.any fun r => decide (r.owner = me ∧ r.tag = k)) = true := by
  simp [and_assoc]

theorem mem_grantKeys (k : Tag) : k ∈ (grants.filter fun g => decide (g.1 = me)).map Prod.snd ↔
    (grants.any fun g => decide (g = (me, k))) = true := by
  simp [Prod.ext_iff]

/-- R147: slots and events after a report, where step 2 is for these removed records and step 3 for the own grants. -/
theorem settlesTo_of_rows {others : List Event} {gone granted : List Tag}
    (isGone : gone = (removed.filter fun r => decide (r.owner = me)).map Record.tag)
    (isGranted : granted = (grants.filter fun g => decide (g.1 = me)).map Prod.snd)
    (slots : u.slots = s.slots) (line : u.line.onLine = s.line.onLine)
    (told : u.port.events = s.eventsWith others)
    (after : t.slots = u.rows (reportRule seq gone) (gone ++ granted))
    (events : t.port.events = u.eventsWith ((gone ++ granted).flatMap fun k => (u.rowOf (reportRule seq gone) k).2.1)) :
    s.settlesTo t me seq removed grants others := by
  have onLine (k : Tag) : u.slotOnLine k = s.slotOnLine k := by
    simp only [State.slotOnLine, State.entryOnLine, slots, line]
  have row (k : Tag) (mem : k ∈ gone ++ granted) : u.rowOf (reportRule seq gone) k =
      (if (removed.any fun r => decide (r.owner = me ∧ r.tag = k)) then
        removalRow k s.slots.slots[k] (s.slotOnLine k) seq
      else if (grants.any fun g => decide (g = (me, k))) then grantRow k s.slots.slots[k] (s.slotOnLine k) seq
      else (s.slots.slots[k], [], false)) := by
    rw [List.mem_append] at mem
    rw [State.rowOf, slots, onLine, reportRule]
    by_cases removes : k ∈ gone
    · rw [if_pos removes, if_pos ((mem_goneKeys k).1 (isGone ▸ removes))]
    · rw [if_neg removes, if_neg fun any => removes (isGone ▸ (mem_goneKeys k).2 any),
        if_pos ((mem_grantKeys k).1 (isGranted ▸ mem.resolve_left removes))]
  have idle (k : Tag) (out : k ∉ gone ++ granted) :
      (if (removed.any fun r => decide (r.owner = me ∧ r.tag = k)) then
        removalRow k s.slots.slots[k] (s.slotOnLine k) seq
      else if (grants.any fun g => decide (g = (me, k))) then grantRow k s.slots.slots[k] (s.slotOnLine k) seq
      else (s.slots.slots[k], [], false)) = (s.slots.slots[k], [], false) := by
    rw [List.mem_append, not_or] at out
    rw [if_neg fun any => out.1 (isGone ▸ (mem_goneKeys k).2 any),
      if_neg fun any => out.2 (isGranted ▸ (mem_grantKeys k).2 any)]
  refine ⟨?_, ?_⟩
  · rw [after, State.rows, slots]
    dsimp only
    congr 1
    · congr 1
      funext k
      by_cases mem : k ∈ gone ++ granted
      · rw [if_pos mem, row k mem]
      · rw [if_neg mem, idle k mem]
    · refine List.filter_congr fun q _ => ?_
      by_cases mem : q.tag ∈ gone ++ granted
      · rw [row q.tag mem, decide_eq_true mem, Bool.true_and]
      · rw [idle q.tag mem, decide_eq_false mem, Bool.false_and]
  · have rows : ((gone ++ granted).flatMap fun k => (u.rowOf (reportRule seq gone) k).2.1) =
        (gone ++ granted).flatMap fun k =>
          (if (removed.any fun r => decide (r.owner = me ∧ r.tag = k)) then
            removalRow k s.slots.slots[k] (s.slotOnLine k) seq
          else if (grants.any fun g => decide (g = (me, k))) then grantRow k s.slots.slots[k] (s.slotOnLine k) seq
          else (s.slots.slots[k], [], false)).2.1 := by
      simp only [List.flatMap]
      congr 1
      exact List.map_congr_left fun k mem => by rw [row k mem]
    rw [events, rows, List.flatMap_append, isGone, isGranted, List.flatMap_map, List.flatMap_map, List.append_assoc others,
      s.eventsWith_append others]
    exact State.eventsWith_congr _ told

end SettlesTo

end Sys2Proof.Machine

/-! # An application: its events, its move, and the slots it settles (R45, R79, R91, R95, R96, R98, R110) -/

namespace Sys2Proof.Machine

/-! ### What the membership step tells and asks for -/

/-- R110: an EVICT of a non-member, or of its own sender. -/
def State.stale (s : State) (f : Frame) : Bool :=
  match f.body with
  | .evict target =>
    if h : target.toNat < 16 then !(s.roster.isMember ⟨target.toNat, h⟩ && decide (⟨target.toNat, h⟩ ≠ f.sender)) else true
  | _ => false

/-- R91, R95, R110: the events about peers that the membership step appends. -/
def State.newsOf (s : State) (f : Frame) : List Event :=
  match f.body with
  | .join d =>
    if s.isMe f.sender then []
    else if s.roster.digest = some d then
      [peerEvent .peerIn f.sender (some (if s.roster.isMember f.sender then .renewed else .new)) f.seq]
    else [peerEvent .peerRefused f.sender none f.seq]
  | .leave =>
    if s.isMe f.sender then [] else if s.roster.isMember f.sender then [peerEvent .peerOut f.sender (some .left) f.seq] else []
  | .evict target =>
    if h : target.toNat < 16 then
      let x : StationNo := ⟨target.toNat, h⟩
      if s.roster.isMember x && decide (x ≠ f.sender) then
        if s.isMe x && decide (ownLoss s.mem.state .evicted ≠ .stay) then []
        else [peerEvent .peerOut x (some .evicted) f.seq]
      else []
    else []
  | _ => []

/-- R99: the event about a frame of the own number that this station did not send. -/
def State.twinOf (s : State) (f : Frame) (own : Bool) : List Event := if s.isForeign f own then [duplicateEvent f] else []

/-- R92, R95, R96, R99, R112: the move that the frame asks of the station. -/
def State.moveAsked (s : State) (f : Frame) (own : Bool) : Move :=
  match f.body with
  | .join d =>
    if s.isMe f.sender then
      if own then (if s.roster.digest = some d then .becomeMember else .leaveGroup .refused .config)
      else .leaveGroup .isolated .duplicate
    else .stay
  | .leave =>
    if s.isMe f.sender then
      if own then .leaveGroup .detached .left
      else if s.roster.isMember f.sender then ownLoss s.mem.state .removed else .stay
    else .stay
  | .evict target =>
    if h : target.toNat < 16 then
      if s.roster.isMember ⟨target.toNat, h⟩ && decide (⟨target.toNat, h⟩ ≠ f.sender) && s.isMe ⟨target.toNat, h⟩ then
        ownLoss s.mem.state .evicted
      else .stay
    else .stay
  | _ => .stay

@[simp] theorem Roster.recordTaken_digest (r : Roster) (x : StationNo) (q : Seq) : (r.recordTaken x q).digest = r.digest := by
  unfold Roster.recordTaken
  split <;> rfl

section Told

variable (s : State) (f : Frame) (own : Bool)

/-- R45 step 4: the membership effect at a roster that has recorded the frame. -/
def State.kindApplied : State × Move := State.applyKind { s with roster := s.roster.recordTaken f.sender f.seq } f own

theorem kindApplied_state :
    (s.kindApplied f own).1 =
      { (if s.stale f then s.bump .staleEvictions else s).tells (s.newsOf f) with
        roster := (s.kindApplied f own).1.roster
        pres := (s.kindApplied f own).1.pres } := by
  have isMe (n : StationNo) (r : Roster) : State.isMe { s with roster := r } n = s.isMe n := rfl
  unfold State.kindApplied State.applyKind State.stale State.newsOf
  cases body : f.body with
  | join d =>
    simp only [State.applyJoin, Roster.isMember_recordTaken, Roster.recordTaken_digest, isMe]
    by_cases ok : s.roster.digest = some d <;> cases s.isMe f.sender <;> cases s.roster.isMember f.sender <;>
      simp only [ok, decide_true, decide_false, if_true, if_false, Bool.false_eq_true] <;> rfl
  | leave =>
    simp only [State.applyLeave, Roster.isMember_recordTaken, isMe]
    cases s.isMe f.sender <;> cases s.roster.isMember f.sender <;> rfl
  | evict target =>
    simp only [State.applyEvict, Roster.isMember_recordTaken, isMe]
    by_cases near : target.toNat < 16
    · simp only [dif_pos near]
      cases gone : s.roster.isMember ⟨target.toNat, near⟩ && decide (⟨target.toNat, near⟩ ≠ f.sender)
      · rfl
      · cases s.isMe ⟨target.toNat, near⟩
        · rfl
        · cases loss : ownLoss s.mem.state .evicted <;>
            simp only [loss, Bool.true_and, ne_eq, reduceCtorEq, not_true, not_false_eq_true, decide_true,
              decide_false, Bool.false_eq_true, if_false] <;> rfl
    · simp only [dif_neg near]
      rfl
  | _ => rfl

theorem kindApplied_move : (s.kindApplied f own).2 = s.moveAsked f own := by
  have isMe (n : StationNo) (r : Roster) : State.isMe { s with roster := r } n = s.isMe n := rfl
  unfold State.kindApplied State.applyKind State.moveAsked
  cases body : f.body with
  | join d =>
    simp only [State.applyJoin, Roster.isMember_recordTaken, Roster.recordTaken_digest, isMe, decide_eq_true_eq]
    split <;> rfl
  | leave =>
    simp only [State.applyLeave, Roster.isMember_recordTaken, isMe]
    split <;> rfl
  | evict target =>
    simp only [State.applyEvict, Roster.isMember_recordTaken, isMe]
    by_cases near : target.toNat < 16
    · simp only [dif_pos near]
      cases gone : s.roster.isMember ⟨target.toNat, near⟩ && decide (⟨target.toNat, near⟩ ≠ f.sender)
      · rfl
      · cases s.isMe ⟨target.toNat, near⟩
        · rfl
        · cases loss : ownLoss s.mem.state .evicted <;> simp only [loss, Bool.true_and, if_true]
    · simp only [dif_neg near]
  | _ => rfl

theorem membershipStep_move :
    (s.membershipStep f own).2 = (s.moveAsked f own).withDissolution ((s.membershipStep f own).1.roster.dissolvedBy f) := by
  rw [← kindApplied_move]
  rfl

theorem membershipStep_state :
    (s.membershipStep f own).1 =
      { (if s.stale f then s.bump .staleEvictions else s).tells (s.newsOf f ++ s.twinOf f own) with
        roster := (s.membershipStep f own).1.roster
        pres := (s.membershipStep f own).1.pres } := by
  have applied := kindApplied_state s f own
  have step : (s.membershipStep f own).1 =
      if s.isForeign f own then (s.kindApplied f own).1.emit (duplicateEvent f)
      else (s.kindApplied f own).1 := rfl
  rw [State.twinOf, ← State.tells_tells]
  cases foreign : s.isForeign f own with
  | false =>
    have eq : (s.membershipStep f own).1 = (s.kindApplied f own).1 := step.trans (if_neg (by rw [foreign]; exact nofun))
    rw [eq]
    exact applied
  | true =>
    have eq : (s.membershipStep f own).1 = (s.kindApplied f own).1.emit (duplicateEvent f) := step.trans (if_pos foreign)
    rw [eq]
    conv_lhs => rw [applied]
    rfl

end Told

/-! ### The application at a station that stays -/

section Steps

variable (s : State) (f : Frame) (own : Bool)

theorem afterMembership_state :
    (s.afterMembership f own).1 =
      { (if s.stale f then (s.afterTable f).bump .staleEvictions else s.afterTable f).tells
          (s.newsOf f ++ s.twinOf f own) with
        roster := (s.afterMembership f own).1.roster
        pres := (s.afterMembership f own).1.pres } := membershipStep_state (s.afterTable f) f own

theorem afterMembership_events :
    (s.afterMembership f own).1.port.events = s.eventsWith (s.newsOf f ++ s.twinOf f own) := by
  rw [afterMembership_state]
  refine State.eventsWith_congr _ ?_
  split <;> rfl

theorem afterMembership_counters :
    (s.afterMembership f own).1.port.counters =
      if s.stale f then (s.bump .staleEvictions).port.counters else s.port.counters := by
  rw [afterMembership_state]
  refine (State.tells_counters _ _).trans ?_
  split <;> rfl

theorem moveOf_eq :
    s.moveOf f own = (s.moveAsked f own).withDissolution ((s.afterMembership f own).1.roster.dissolvedBy f) :=
  membershipStep_move (s.afterTable f) f own

/-- R91, R95, R110: the roster after the membership effect. -/
theorem afterMembership_roster : (s.afterMembership f own).1.roster = ((s.afterTable f).kindApplied f own).1.roster :=
  membershipStep_roster (s.afterTable f) f own

theorem afterMembership_pres : (s.afterMembership f own).1.pres = ((s.afterTable f).kindApplied f own).1.pres := by
  change (State.membershipStep (s.afterTable f) f own).1.pres = _
  simp only [State.membershipStep]
  split <;> rfl

/-- R79: a frame that is no JOIN, LEAVE or EVICT leaves roster and timers but for its sender's last-taken. -/
theorem afterMembership_of_plain (plain : f.body.kind ≠ .join ∧ f.body.kind ≠ .leave ∧ f.body.kind ≠ .evict) :
    (s.afterMembership f own).1.roster = s.roster.recordTaken f.sender f.seq ∧ (s.afterMembership f own).1.pres = s.pres ∧
      s.moveAsked f own = .stay ∧ s.newsOf f = [] ∧ s.stale f = false := by
  rw [afterMembership_roster, afterMembership_pres]
  unfold State.kindApplied State.applyKind State.moveAsked State.newsOf State.stale
  cases body : f.body with
  | join => simp [body, Body.kind] at plain
  | leave => simp [body, Body.kind] at plain
  | evict => simp [body, Body.kind] at plain
  | _ => exact ⟨rfl, rfl, rfl, rfl, rfl⟩

variable {s f own}

theorem Roster.dissolvedBy_of_member {r : Roster} {n : StationNo} (member : r.isMember n = true)
    (other : f.body.kind ≠ .syncreq ∨ n ≠ f.sender) : r.dissolvedBy f = false := by
  have peopled : r.isVoid = false := by
    rw [Roster.isVoid, Bool.not_eq_false', List.any_eq_true]
    exact ⟨n, List.mem_finRange n, member⟩
  rw [Roster.dissolvedBy, peopled, Bool.false_or, Bool.and_eq_false_iff]
  obtain kind | other := other
  · exact .inl (by simpa using kind)
  · right
    rw [← Option.not_isSome, Bool.not_eq_false', Roster.server, List.find?_isSome]
    exact ⟨n, List.mem_finRange n, by simp [other, member]⟩

theorem Roster.dissolvedBy_of_alone {r : Roster} (alone : ∀ n, r.isMember n = true → f.body.kind = .syncreq ∧ n = f.sender)
    : r.dissolvedBy f = true ↔ f.body.kind = .syncreq ∨ ∀ n, r.isMember n = false := by
  rw [Roster.dissolvedBy, Bool.or_eq_true, Roster.isVoid, Bool.not_eq_true', List.any_eq_false, Bool.and_eq_true,
    decide_eq_true_eq, Option.isNone_iff_eq_none, Roster.server, List.find?_eq_none]
  simp only [List.mem_finRange, true_imp_iff, Bool.not_eq_true]
  constructor
  · rintro (void | ⟨kind, _⟩)
    · exact .inr void
    · exact .inl kind
  · rintro (kind | void)
    · exact .inr ⟨kind, fun n => by
        cases member : r.isMember n
        · simp
        · simp [(alone n member).2]⟩
    · exact .inl void

/-- R45: an application that leaves the station state settles the slots by its report. -/
theorem applyFrame_of_stay (stay : s.moveOf f own = .stay) (live : Bool) (entry : Option Tag) :
    s.applyFrame live own entry f =
      let u := ((s.afterMembership f own).1.reload own).settleReport f own entry (s.reportOf f)
      if live then u.lastStep f own s.fingerprint else u := by
  rw [applyFrame_eq, State.afterSlots, State.afterMove, stay]
  rfl

end Steps

/-! ### A heard frame that leaves the station state -/

/-- R45: another's frame applied up to the slots. -/
def State.heardStay (s : State) (f : Frame) : State :=
  ((s.countsFrom f.sender).afterMembership f false).1.settleReport f false none ((s.countsFrom f.sender).reportOf f)

theorem exec_frameOutcome_of_stay {s : State} {f : Frame} {others : List Bool}
    (reads : s.readsSlot (.good f) .accept others true true) (calm : s.line.faulted = none) (inStep : s.order.step = .inStep)
    (stay : (s.countsFrom f.sender).moveOf f false = .stay) :
    exec (.frameOutcome others) s =
      .next { ((s.heardStay f).lastStep f false s.fingerprint).heardFrom f.sender with line := s.line.toQuiet } := by
  rw [exec_frameOutcome_of_taken reads calm, taken_of_accept (by exact inStep), applyFrame_of_stay stay]
  rfl

/-- What a heard frame that leaves the station state has done before the slots' events and its last step. -/
structure State.HeardStay (s : State) (f : Frame) (u : State) : Prop where
  power : u.power = s.power
  cfg : u.cfg = s.cfg
  order : u.order = { s.order with expected := f.seq + 1, lastHeard := some f.seq }
  table : u.table = (s.table.apply s.cfg s.roster.isMember f).1
  mem : u.mem = s.mem
  cu : u.cu = s.cu
  zl : u.zl = s.zl
  roster : u.roster = ((s.countsFrom f.sender).afterMembership f false).1.roster
  pres : u.pres = ((s.countsFrom f.sender).afterMembership f false).1.pres
  counters : u.port.counters =
    if s.stale f then ((s.countsFrom f.sender).bump .staleEvictions).port.counters else (s.countsFrom f.sender).port.counters
  request : u.port.request = s.port.request
  response : u.port.response = s.port.response

theorem State.heardStay_frame (s : State) (f : Frame) : s.HeardStay f (s.heardStay f) := by
  have counters := afterMembership_counters (s.countsFrom f.sender) f false
  have same := membershipStep_sameButRoster ((s.countsFrom f.sender).afterTable f) f false
  have settles : ((s.countsFrom f.sender).afterMembership f false).1.SettlesFrom (s.heardStay f) :=
    State.SettlesFrom.settleReport _ f none _
  have told := settles.counters
  obtain ⟨slots, es, eq⟩ := settles
  have group := (settleReport_groupRest _ f false none ((s.countsFrom f.sender).reportOf f)).trans
    (membershipStep_groupRest ((s.countsFrom f.sender).afterTable f) f false)
  exact {
    power := by rw [eq]; exact same.power
    cfg := by rw [eq]; exact same.cfg
    order := by rw [eq]; exact same.order
    table := by rw [eq]; exact same.table
    mem := by rw [eq]; exact same.mem
    cu := by rw [eq]; exact same.cu
    zl := by rw [eq]; exact same.zl
    roster := by rw [eq]; rfl
    pres := by rw [eq]; rfl
    counters := told.trans counters
    request := congrArg (·.request) group
    response := congrArg (·.response) group }

end Sys2Proof.Machine

/-! # A peer's CLAIM, RELEASE, WITHDRAW, BEAT or SYNCREQ is applied (R45, R50, R79, R105, R120 to R124) -/

namespace Sys2Proof.Machine

theorem Roster.recordTaken_members (r : Roster) (x : StationNo) (q : Seq) (n : StationNo) :
    (r.recordTaken x q).members[n] =
      if n = x then (r.members[n]).map fun m => { m with lastTaken := q } else r.members[n] := by
  unfold Roster.recordTaken
  by_cases here : n = x
  · subst here
    rw [if_pos rfl]
    cases member : r.members[n] with
    | none => simp [member]
    | some m => simp
  · rw [if_neg here]
    have apart : x.val ≠ n.val := fun same => here (Fin.ext same.symm)
    split
    · simp [apart]
    · rfl

theorem Roster.recordTaken_isMember (r : Roster) (x : StationNo) (q : Seq) : (r.recordTaken x q).isMember = r.isMember := by
  funext n
  exact Roster.isMember_recordTaken r x n q

theorem Roster.recordTaken_word (r : Roster) (x : StationNo) (q : Seq) : (r.recordTaken x q).word = r.word := by
  rw [Roster.word, Roster.word, Roster.recordTaken_isMember]

theorem Roster.recordTaken_reference (r : Roster) (x : StationNo) (q : Seq) : (r.recordTaken x q).reference = r.reference := by
  rw [Roster.reference, Roster.reference, Roster.recordTaken_isMember]

theorem Roster.lastTakens_eq (r : Roster) :
    r.lastTakens = (List.finRange 16).filterMap fun n => (r.members[n]).map Member.lastTaken := by
  have listed : r.members.toList = (List.finRange 16).map fun n => r.members[n] := by
    refine List.ext_getElem (by simp) fun i _ _ => ?_
    simp
  rw [Roster.lastTakens, listed, List.filterMap_map]
  rfl

/-! ### A frame that leaves roster and station state -/

section Plain

variable {s : State} {f : Frame} (plain : f.body.kind ≠ .join ∧ f.body.kind ≠ .leave ∧ f.body.kind ≠ .evict)

include plain

/-- R98: a member other than the sender of a SYNCREQ keeps the group. -/
theorem moveOf_of_plain {own : Bool} {n : StationNo} (member : s.roster.isMember n = true)
    (other : f.body.kind ≠ .syncreq ∨ n ≠ f.sender) : s.moveOf f own = .stay := by
  obtain ⟨roster, _, asked, _, _⟩ := afterMembership_of_plain s f own plain
  rw [moveOf_eq, asked, roster, Roster.dissolvedBy_of_member (by rw [Roster.isMember_recordTaken]; exact member) other]
  rfl

theorem State.HeardStay.of_plain {u : State} (h : s.HeardStay f u) :
    u.roster = s.roster.recordTaken f.sender f.seq ∧ u.pres = s.pres ∧
      u.port.counters = (s.countsFrom f.sender).port.counters := by
  obtain ⟨roster, pres, _, _, fresh⟩ := afterMembership_of_plain (s.countsFrom f.sender) f false plain
  have fresh : s.stale f = false := fresh
  refine ⟨h.roster.trans roster, h.pres.trans pres, h.counters.trans ?_⟩
  rw [fresh]
  rfl

theorem heardStay_of_no_report (peer : s.mem.number ≠ some f.sender)
    (still : s.table.apply s.cfg s.roster.isMember f = (s.table, {})) :
    (s.heardStay f).slots = s.slots ∧ (s.heardStay f).port.events = s.port.events := by
  obtain ⟨_, _, _, news, fresh⟩ := afterMembership_of_plain (s.countsFrom f.sender) f false plain
  have events := afterMembership_events (s.countsFrom f.sender) f false
  have slots := (membershipStep_sameButRoster ((s.countsFrom f.sender).afterTable f) f false).slots
  have single : (s.countsFrom f.sender).twinOf f false = [] := by
    simp [State.twinOf, State.isForeign, State.isMe, State.countsFrom, State.bump, peer]
  have report : (s.countsFrom f.sender).reportOf f = {} := congrArg Prod.snd still
  have unsettled : s.heardStay f = ((s.countsFrom f.sender).afterMembership f false).1 := by
    rw [State.heardStay, report]
    rfl
  rw [unsettled]
  refine ⟨slots, events.trans ?_⟩
  rw [news, single]
  rfl

end Plain

/-! ### The comparison of a BEAT (R50) -/

theorem compareFingerprint_frame (u : State) (f : Frame) (own : Bool) (carried kept : Half) (differs : carried ≠ kept) :
    let told := (u.emit { kind := .mismatch, station := some f.sender, seq := some f.seq }).bump .mismatches
    u.compareFingerprint f own carried kept =
      if u.roster.reference = some f.sender ∧ u.isForeign f own = false then told.enterBehind else told := by
  simp only [State.compareFingerprint, if_neg differs]
  rfl

theorem State.enterBehind_frame (u : State) :
    u.enterBehind = { u with order := u.enterBehind.order, pres := u.enterBehind.pres, cu := u.enterBehind.cu } := by
  unfold State.enterBehind
  split <;> rfl

theorem enterBehind_absence_stopped (u : State) (n : StationNo) :
    u.enterBehind.pres.absence[n] = .stopped ↔ u.pres.absence[n] = .stopped := by
  unfold State.enterBehind
  split
  · rfl
  · dsimp only
    rw [Presence.quiesce_absence, Watch.unexpire_eq]
    split
    · next expired => simp [expired]
    · rfl

/-- R50: a fingerprint that differs is told and counted; only the reference station's sends the station BEHIND. -/
structure State.Compared (u : State) (f : Frame) (t : State) : Prop where
  frame : t = { u with order := t.order, pres := t.pres, cu := t.cu, port := t.port }
  expected : t.order.expected = u.order.expected
  lastHeard : t.order.lastHeard = u.order.lastHeard
  absence : ∀ n : StationNo, t.pres.absence[n] = .stopped ↔ u.pres.absence[n] = .stopped
  port : t.port = ((u.emit { kind := .mismatch, station := some f.sender, seq := some f.seq }).bump .mismatches).port
  behind : u.order.step = .inStep → (t.order.step = .behind ↔ u.roster.reference = some f.sender)

theorem compareFingerprint_compared {u : State} {f : Frame} {carried kept : Half} (differs : carried ≠ kept)
    (peer : u.mem.number ≠ some f.sender) : u.Compared f (u.compareFingerprint f false carried kept) := by
  have native : u.isForeign f false = false := by simp [State.isForeign, State.isMe, peer]
  rw [compareFingerprint_frame u f false carried kept differs]
  generalize told : (u.emit { kind := .mismatch, station := some f.sender, seq := some f.seq }).bump .mismatches = v
  have frame : v = { u with port := v.port } := by rw [← told]; rfl
  by_cases reference : u.roster.reference = some f.sender
  · rw [if_pos ⟨reference, native⟩]
    obtain ⟨_, _, _, _, port, expected, lastHeard⟩ := enterBehind_keeps v
    exact {
      frame := by rw [State.enterBehind_frame v]; rw [frame]
      expected := expected.trans (by rw [frame])
      lastHeard := lastHeard.trans (by rw [frame])
      absence := fun n => (enterBehind_absence_stopped v n).trans (by rw [frame])
      port := port.trans (congrArg (·.port) told).symm
      behind := fun _ => ⟨fun _ => reference, fun _ => enterBehind_step v⟩ }
  · rw [if_neg fun both => reference both.1]
    exact {
      frame := by rw [frame]
      expected := by rw [frame]
      lastHeard := by rw [frame]
      absence := fun n => by rw [frame]
      port := (congrArg (·.port) told).symm
      behind := fun inStep => ⟨fun behind => (by rw [frame, inStep] at behind; cases behind), fun here => absurd here reference⟩ }

/-! ### The live step of a plain frame (R46, R50, R120) -/

theorem lastStep_of_tabled (u : State) (f : Frame) (own : Bool) (kept : Half)
    (kind : (f.body.kind ≠ .beat ∧ f.body.kind ≠ .syncreq) ∨ f.body = .beat kept) : u.lastStep f own kept = u := by
  unfold State.lastStep
  cases body : f.body with
  | syncreq => simp [body, Body.kind] at kind
  | beat fp =>
    have same : fp = kept := by simpa [body, Body.kind] using kind
    simp only [State.compareFingerprint, if_pos same]
  | _ => rfl

/-- R45, R50: what a peer's CLAIM, RELEASE, WITHDRAW or BEAT leaves, before the absence timer restarts. -/
structure State.PlainTaken (s : State) (f : Frame) (u : State) : Prop where
  power : u.power = s.power
  cfg : u.cfg = s.cfg
  expected : u.order.expected = f.seq + 1
  lastHeard : u.order.lastHeard = some f.seq
  table : u.table = (s.table.apply s.cfg s.roster.isMember f).1
  mem : u.mem = s.mem
  zl : u.zl = s.zl
  roster : u.roster = s.roster.recordTaken f.sender f.seq
  absence : ∀ n : StationNo, u.pres.absence[n] = .stopped ↔ s.pres.absence[n] = .stopped
  sender : u.port.counters[(Counter.takenFrom f.sender).index] = satInc s.port.counters[(Counter.takenFrom f.sender).index]
  request : u.port.request = s.port.request
  response : u.port.response = s.port.response

theorem State.HeardStay.plainTaken {s u : State} {f : Frame} (h : s.HeardStay f u)
    (plain : f.body.kind ≠ .join ∧ f.body.kind ≠ .leave ∧ f.body.kind ≠ .evict) : s.PlainTaken f u := by
  obtain ⟨roster, pres, counters⟩ := h.of_plain plain
  exact {
    power := h.power, cfg := h.cfg, table := h.table, mem := h.mem, zl := h.zl, roster := roster
    request := h.request, response := h.response
    expected := by rw [h.order]
    lastHeard := by rw [h.order]
    absence := fun n => by rw [pres]
    sender := by
      rw [counters]
      exact s.countsFrom_counters f.sender }

theorem State.PlainTaken.compared {s u t : State} {f : Frame} (h : s.PlainTaken f u) (c : u.Compared f t) :
    s.PlainTaken f t := by
  have port := c.port
  exact {
    power := (congrArg (·.power) c.frame).trans h.power
    cfg := (congrArg (·.cfg) c.frame).trans h.cfg
    expected := c.expected.trans h.expected
    lastHeard := c.lastHeard.trans h.lastHeard
    table := (congrArg (·.table) c.frame).trans h.table
    mem := (congrArg (·.mem) c.frame).trans h.mem
    zl := (congrArg (·.zl) c.frame).trans h.zl
    roster := (congrArg (·.roster) c.frame).trans h.roster
    absence := fun n => (c.absence n).trans (h.absence n)
    sender := by
      rw [port]
      refine (State.bump_other _ .mismatches ?_).trans ?_
      · simp [Counter.index, Fin.ext_iff]
        omega
      · rw [← h.sender]
        exact congrArg (·[(Counter.takenFrom f.sender).index]) (Port.append_counters ..)
    request := by
      rw [port]
      exact (congrArg (·.request) ((bump_groupRest _ .mismatches).trans (emit_groupRest u _))).trans h.request
    response := by
      rw [port]
      exact (congrArg (·.response) ((bump_groupRest _ .mismatches).trans (emit_groupRest u _))).trans h.response }

/-- R33, R45, R50, R105: the peer's CLAIM, RELEASE, WITHDRAW or BEAT. -/
theorem peerPlainTaken {s : State} {f : Frame} {others : List Bool} (reads : s.readsSlot (.good f) .accept others true true)
    (calm : s.line.faulted = none) (inStep : s.order.step = .inStep) (peer : s.mem.number ≠ some f.sender)
    (member : s.roster.isMember f.sender = true)
    (kind : f.body.kind = .claim ∨ f.body.kind = .release ∨ f.body.kind = .withdraw ∨ f.body.kind = .beat) :
    ∃ u, s.PlainTaken f u ∧ exec (.frameOutcome others) s = .next { u.heardFrom f.sender with line := s.line.toQuiet } ∧
      (f.body.kind ≠ .beat ∨ f.body = .beat s.fingerprint →
        u.cu = s.cu ∧ u.order.step = .inStep ∧ u.pres = s.pres ∧ u.port.counters[5] = s.port.counters[5]) ∧
      (∀ fp, f.body = .beat fp → fp ≠ s.fingerprint →
        u.port.counters[5] = satInc s.port.counters[5] ∧ u.slots = s.slots ∧
        u.port.events = (s.port.append s.cfg.idleTimeout
          { kind := .mismatch, station := some f.sender, seq := some f.seq }).events ∧
        (u.order.step = .behind ↔ s.roster.reference = some f.sender)) := by
  have plain : f.body.kind ≠ .join ∧ f.body.kind ≠ .leave ∧ f.body.kind ≠ .evict := by
    obtain kind | kind | kind | kind := kind <;> simp [kind]
  have noRequest : f.body.kind ≠ .syncreq := by obtain kind | kind | kind | kind := kind <;> simp [kind]
  have stay : (s.countsFrom f.sender).moveOf f false = .stay :=
    moveOf_of_plain (s := s.countsFrom f.sender) plain member (.inl noRequest)
  have next := exec_frameOutcome_of_stay reads calm inStep stay
  have stays := s.heardStay_frame f
  have taken := stays.plainTaken plain
  obtain ⟨roster, pres, counters⟩ := stays.of_plain plain
  have apart : (5 : Fin 28) ≠ (Counter.takenFrom f.sender).index := by
    simp [Counter.index, Fin.ext_iff]
    omega
  have mismatches : (s.heardStay f).port.counters[5] = s.port.counters[5] := by
    rw [counters]
    exact State.bump_other _ _ apart
  by_cases same : f.body.kind ≠ .beat ∨ f.body = .beat s.fingerprint
  · rw [lastStep_of_tabled _ _ _ _ (same.imp_left fun other => ⟨other, noRequest⟩)] at next
    refine ⟨_, taken, next, fun _ => ⟨stays.cu, ?_, pres, mismatches⟩, fun fp body differs => ?_⟩
    · rw [stays.order]
      exact inStep
    · obtain other | equal := same
      · exact absurd (congrArg Body.kind body) other
      · exact absurd (Body.beat.inj (body.symm.trans equal)) differs
  · rw [not_or, not_not] at same
    obtain ⟨beat, differs⟩ := same
    obtain ⟨fp, body⟩ : ∃ fp, f.body = .beat fp := by
      cases body : f.body with
      | beat fp => exact ⟨fp, rfl⟩
      | _ => simp [body, Body.kind] at beat
    have differs : fp ≠ s.fingerprint := fun equal => differs (by rw [body, equal])
    have last : (s.heardStay f).lastStep f false s.fingerprint =
        (s.heardStay f).compareFingerprint f false fp s.fingerprint := by
      simp only [State.lastStep, body]
    have still : s.table.apply s.cfg s.roster.isMember f = (s.table, {}) := by simp only [Table.apply, body]
    obtain ⟨slots, events⟩ := heardStay_of_no_report plain peer still
    have compared := compareFingerprint_compared (u := s.heardStay f) (f := f) differs (by rw [stays.mem]; exact peer)
    rw [last] at next
    generalize (s.heardStay f).compareFingerprint f false fp s.fingerprint = t at next compared
    refine ⟨t, taken.compared compared, next, fun same => ?_, fun _ _ _ => ⟨?_, ?_, ?_, ?_⟩⟩
    · obtain other | equal := same
      · exact absurd beat other
      · exact absurd (Body.beat.inj (body.symm.trans equal)) differs
    · rw [compared.port, ← mismatches]
      refine (State.bump_self _ .mismatches).trans ?_
      exact congrArg (fun v : Vector Half 28 => satInc v[(Counter.mismatches).index]) (Port.append_counters ..)
    · exact (congrArg (·.slots) compared.frame).trans slots
    · rw [compared.port]
      exact Port.append_events_congr _ events _ _
    · rw [compared.behind (by rw [stays.order]; exact inStep), roster, Roster.recordTaken_reference]

/-- R105: the fields after the frame of a member has restarted its absence timer. -/
theorem heardFrom_absence_running {u : State} {n : StationNo} (member : u.roster.isMember n = true) (peer : u.mem.number ≠ some n)
    (runs : u.pres.absence[n] ≠ .stopped) : (u.heardFrom n).pres.absence[n] = .running u.cfg.absenceTime := by
  rw [State.heardFrom_absence, if_pos ⟨rfl, member, peer, runs⟩]

theorem heardFrom_absence_other (u : State) {x n : StationNo} (other : n ≠ x) :
    (u.heardFrom x).pres.absence[n] = u.pres.absence[n] := by
  rw [State.heardFrom_absence, if_neg fun all => other all.1.symm]

/-! ### A peer's SYNCREQ (R120 to R124) -/

/-- R121: the serve list once a request has come in. -/
def servesAfter (list : List StationNo) (r : StationNo) : List StationNo :=
  if r ∈ list ∨ 4 ≤ list.length then list else list ++ [r]

theorem serveRequest_of_other {u : State} {r : StationNo} (other : ∀ v, u.cu.serve = some v → v.requester ≠ r) :
    u.serveRequest r =
      State.startNextServe { (if r ∉ u.cu.serveList ∧ 4 ≤ u.cu.serveList.length then u.bump .requestsDropped else u) with
        cu := { u.cu with serveList := servesAfter u.cu.serveList r } } := by
  have fresh : u.cu.serve.map Serve.requester ≠ some r := by
    cases serve : u.cu.serve with
    | none => simp
    | some v => simpa using other v serve
  rw [State.serveRequest, if_neg fresh]
  by_cases listed : r ∈ u.cu.serveList
  · rw [if_pos (by simpa using listed), servesAfter, if_pos (c := r ∈ _ ∨ _) (.inl listed),
      if_neg (c := r ∉ _ ∧ _) fun both => both.1 listed]
  · rw [if_neg (by simpa using listed), servesAfter]
    by_cases full : 4 ≤ u.cu.serveList.length
    · rw [if_pos (c := Config.maxServeList ≤ _) full, if_pos (c := r ∈ _ ∨ _) (.inr full),
        if_pos (c := r ∉ _ ∧ _) ⟨listed, full⟩]
      rfl
    · rw [if_neg (c := Config.maxServeList ≤ _) full, if_neg (c := r ∈ _ ∨ _) fun either => either.elim listed full,
        if_neg (c := r ∉ _ ∧ _) fun both => full both.2]

theorem startNextServe_frame (u : State) : u.startNextServe = { u with cu := u.startNextServe.cu } := by
  unfold State.startNextServe
  split <;> rfl

theorem State.startNextServe_of_busy {u : State} (busy : u.cu.serve ≠ none) : u.startNextServe = u := by
  unfold State.startNextServe
  split
  · next idle _ => exact absurd idle busy
  · rfl

/-- R80, R120: this station is the server for a requester. -/
theorem server_iff {r : Roster} {x me : StationNo} (other : x ≠ me) :
    r.server x = some me ↔ r.isMember me = true ∧ ∀ n, r.isMember n = true → n ≠ x → me ≤ n := by
  rw [Roster.server, List.find?_eq_some_iff_append]
  constructor
  · rintro ⟨found, before, after, split, least⟩
    rw [Bool.and_eq_true, decide_eq_true_eq] at found
    refine ⟨found.2, fun n member apart => ?_⟩
    have mem : n ∈ before ++ me :: after := split ▸ List.mem_finRange n
    obtain earlier | rfl | later := by simpa using mem
    · have := least n earlier
      simp [member, apart] at this
    · exact le_rfl
    · have sorted : (before ++ me :: after).Pairwise (· < ·) := split ▸ List.pairwise_lt_finRange 16
      exact ((List.pairwise_cons.1 (List.pairwise_append.1 sorted).2.1).1 n later).le
  · rintro ⟨member, least⟩
    obtain ⟨before, after, split⟩ := List.append_of_mem (List.mem_finRange me)
    refine ⟨by simp [other.symm, member], before, after, split, fun n mem => ?_⟩
    have sorted : (before ++ me :: after).Pairwise (· < ·) := split ▸ List.pairwise_lt_finRange 16
    have below : n < me := (List.pairwise_append.1 sorted).2.2 n mem me List.mem_cons_self
    by_contra found
    simp only [Bool.not_eq_true, Bool.not_eq_false', Bool.and_eq_true, decide_eq_true_eq] at found
    exact absurd (least n found.2 found.1) (not_le.2 below)

theorem serveRequest_frame (u : State) (r : StationNo) :
    u.serveRequest r =
      { u with cu := (u.serveRequest r).cu, port := { u.port with counters := (u.serveRequest r).port.counters } } := by
  unfold State.serveRequest
  split
  · rfl
  · split
    · rw [startNextServe_frame]
    · split
      · rw [startNextServe_frame]
        rfl
      · rw [startNextServe_frame]

theorem serveRequest_counters (u : State) (r : StationNo) :
    (u.serveRequest r).port.counters = u.port.counters ∨
      (u.serveRequest r).port.counters = (u.bump .requestsDropped).port.counters := by
  unfold State.serveRequest
  split
  · exact .inl rfl
  · split
    · rw [startNextServe_frame]
      exact .inl rfl
    · split
      · rw [startNextServe_frame]
        exact .inr rfl
      · rw [startNextServe_frame]
        exact .inl rfl

/-- R122: what a capture holds once a frame of `x` with this seq has been recorded. -/
def State.capturedAfter (s : State) (x : StationNo) (q : Seq) : Capture :=
  { digest := s.roster.digest, members := s.roster.word, inUse := s.table.inUse, fingerprint := s.fingerprint
    lastTaken := (List.finRange 16).filterMap fun n =>
      Option.map Member.lastTaken
        (if n = x then (s.roster.members[n]).map fun m => { m with lastTaken := q } else s.roster.members[n])
    records := s.table.records }

theorem capture_of_recorded {s w : State} {x : StationNo} {q : Seq} (roster : w.roster = s.roster.recordTaken x q)
    (table : w.table = s.table) : w.capture = s.capturedAfter x q := by
  have takens : w.roster.lastTakens = (s.capturedAfter x q).lastTaken := by
    rw [roster, Roster.lastTakens_eq]
    simp only [Roster.recordTaken_members]
    rfl
  have fingerprint : w.fingerprint = s.fingerprint := by
    rw [State.fingerprint, State.fingerprint, roster, table, Roster.recordTaken_word, Roster.recordTaken_digest]
  unfold State.capture
  rw [takens, fingerprint, roster, table, Roster.recordTaken_word, Roster.recordTaken_digest]
  rfl

theorem beginServe_cu (w : State) (x : StationNo) :
    (w.beginServe x).cu =
      { w.cu with
        serve := some { requester := x, base := w.order.expected - 1, count := w.table.records.length + 1, index := 0 }
        buffer := some w.capture } := rfl

/-- R120: only the named server acts on a SYNCREQ. -/
theorem designate_of_named {u : State} {r me : StationNo} (number : u.mem.number = some me) (inStep : u.order.step = .inStep)
    (named : u.roster.server r = some me) : u.designate r = u.serveRequest r := by
  simp [State.designate, named, State.isMe, number, inStep]

theorem designate_of_unnamed {u : State} {r me : StationNo} (number : u.mem.number = some me)
    (unnamed : u.roster.server r ≠ some me) : u.designate r = u := by
  unfold State.designate
  split
  · next n server =>
    have other : me ≠ n := by
      rintro rfl
      exact unnamed server
    simp [State.isMe, number, other]
  · rfl

theorem Counter.fixed_ne_takenFrom {k : Fin 28} (fixed : k.val < 12) (n : StationNo) : k ≠ (Counter.takenFrom n).index := by
  intro same
  have := congrArg Fin.val same
  simp only [Counter.index] at this
  omega

/-- R45, R120: what a peer's SYNCREQ leaves, before designation. -/
structure State.SyncreqTaken (s : State) (f : Frame) (u : State) : Prop where
  order : u.order = { s.order with expected := f.seq + 1, lastHeard := some f.seq }
  table : u.table = s.table
  roster : u.roster = s.roster.recordTaken f.sender f.seq
  mem : u.mem = s.mem
  cu : u.cu = s.cu
  slots : u.slots = s.slots
  cfg : u.cfg = s.cfg
  zl : u.zl = s.zl
  pres : u.pres = s.pres
  events : u.port.events = s.port.events
  counters : u.port.counters = (s.countsFrom f.sender).port.counters

theorem peerSyncreqTaken {s : State} {f : Frame} {others : List Bool} (reads : s.readsSlot (.good f) .accept others true true)
    (calm : s.line.faulted = none) (inStep : s.order.step = .inStep) (peer : s.mem.number ≠ some f.sender)
    (body : f.body = .syncreq) {n : StationNo} (member : s.roster.isMember n = true) (apart : n ≠ f.sender) :
    ∃ u, s.SyncreqTaken f u ∧ exec (.frameOutcome others) s =
      .next { (u.designate f.sender).heardFrom f.sender with line := s.line.toQuiet } := by
  have plain : f.body.kind ≠ .join ∧ f.body.kind ≠ .leave ∧ f.body.kind ≠ .evict := by simp [body, Body.kind]
  have stay : (s.countsFrom f.sender).moveOf f false = .stay :=
    moveOf_of_plain (s := s.countsFrom f.sender) plain member (.inr apart)
  have next := exec_frameOutcome_of_stay reads calm inStep stay
  have stays := s.heardStay_frame f
  obtain ⟨roster, pres, counters⟩ := stays.of_plain plain
  have still : s.table.apply s.cfg s.roster.isMember f = (s.table, {}) := by simp only [Table.apply, body]
  obtain ⟨slots, events⟩ := heardStay_of_no_report plain peer still
  have last : (s.heardStay f).lastStep f false s.fingerprint = (s.heardStay f).designate f.sender := by
    simp only [State.lastStep, body]
  rw [last] at next
  exact ⟨_, {
    order := stays.order, mem := stays.mem, cu := stays.cu, cfg := stays.cfg, zl := stays.zl
    table := stays.table.trans (congrArg Prod.fst still)
    roster := roster, slots := slots, pres := pres, events := events, counters := counters }, next⟩

/-- R120: designation is on the serves and their counter. -/
theorem designate_frame (u : State) (r : StationNo) :
    u.designate r =
      { u with cu := (u.designate r).cu, port := { u.port with counters := (u.designate r).port.counters } } := by
  unfold State.designate
  split
  · split
    · exact serveRequest_frame u r
    · rfl
  · rfl

theorem designate_counters (u : State) (r : StationNo) {k : Fin 28} (other : k ≠ 10) :
    (u.designate r).port.counters[k] = u.port.counters[k] := by
  unfold State.designate
  split
  · split
    · obtain same | more := serveRequest_counters u r
      · exact congrArg (fun v : Vector Half 28 => v[k]) same
      · exact (congrArg (fun v : Vector Half 28 => v[k]) more).trans (State.bump_other _ .requestsDropped other)
    · rfl
  · rfl

/-- Settles O33. -/
theorem peerFrameTakenIsApplied : Obligations.PeerFrameTakenIsApplied := by
  refine ⟨fun s f others reads calm inStep peer member kind => ?_, fun s f others me reads calm inStep number other body some_ => ?_⟩
  · obtain ⟨u, taken, next, same, differs⟩ := peerPlainTaken reads calm inStep peer member kind
    have listed : u.roster.isMember f.sender = true := by rw [taken.roster, Roster.isMember_recordTaken, member]
    have native : u.mem.number ≠ some f.sender := by rw [taken.mem]; exact peer
    have running := heardFrom_absence_running listed native
    have elsewhere (n : StationNo) (other : n ≠ f.sender) := heardFrom_absence_other u other
    have beat := u.heardFrom_beat f.sender
    rw [State.heardFrom_eq] at next
    refine ⟨_, next, taken.expected, taken.lastHeard, taken.table, fun n => ?_, ?_, fun runs => ?_, rfl, taken.sender,
      taken.mem, taken.cfg, taken.zl, taken.power, taken.request, taken.response, fun tabled => ?_, fun fp body apart => ?_⟩
    · rw [← Roster.recordTaken_members]
      exact congrArg (fun r : Roster => r.members[n]) taken.roster
    · rw [← s.roster.recordTaken_digest f.sender f.seq]
      exact congrArg Roster.digest taken.roster
    · refine (running fun stopped => runs ((taken.absence _).1 stopped)).trans ?_
      rw [taken.cfg]
      rfl
    · obtain ⟨cu, step, pres, counter⟩ := same tabled
      exact ⟨cu, step, beat.1.trans (by rw [pres]), beat.2.trans (by rw [pres]),
        fun n other => (elsewhere n other).trans (by rw [pres]), counter⟩
    · exact differs fp body apart
  · have peer : s.mem.number ≠ some f.sender := by
      rw [number, ne_eq, Option.some.injEq]
      exact fun same => other same.symm
    obtain ⟨n, member, apart⟩ := some_
    obtain ⟨u, taken, next⟩ := peerSyncreqTaken reads calm inStep peer body member apart
    have isNamed : (s.roster.isMember me = true ∧ ∀ n, s.roster.isMember n = true → n ≠ f.sender → me ≤ n) ↔
        u.roster.server f.sender = some me := by
      rw [server_iff other, taken.roster, Roster.recordTaken_isMember]
    have inStep' : u.order.step = .inStep := by rw [taken.order]; exact inStep
    have number' : u.mem.number = some me := by rw [taken.mem]; exact number
    have base : u.order.expected - 1 = f.seq := by rw [taken.order]; simp
    have dropped : u.port.counters[(10 : Fin 28)] = s.port.counters[(10 : Fin 28)] := by
      rw [taken.counters]
      exact State.bump_other _ (.takenFrom f.sender) (Counter.fixed_ne_takenFrom (by decide) _)
    have counted := (designate_counters u f.sender (Counter.fixed_ne_takenFrom (k := 10) (by decide) f.sender).symm).trans
      (taken.counters ▸ s.countsFrom_counters f.sender)
    have frame := designate_frame u f.sender
    have beat := (u.designate f.sender).heardFrom_beat f.sender
    rw [State.heardFrom_eq] at next
    intro r recorded named serveFor captured list isFull
    have silent (out : ¬ named) : u.designate f.sender = u := designate_of_unnamed number' (mt isNamed.2 out)
    have serves (here : named) : u.designate f.sender = u.serveRequest f.sender :=
      designate_of_named number' inStep' (isNamed.1 here)
    refine ⟨_, next, (congrArg (·.order) frame).trans taken.order, (congrArg (·.table) frame).trans taken.table,
      fun n => ?_, ?_, (congrArg (·.mem) frame).trans taken.mem, (congrArg (·.slots) frame).trans taken.slots,
      (congrArg (·.cfg) frame).trans taken.cfg, (congrArg (·.zl) frame).trans taken.zl, rfl, ?_, ?_,
      (congrArg (·.port.events) frame).trans taken.events, counted, fun out => ?_, fun here v serve is => ?_, fun here none_ => ?_⟩
    · exact (congrArg (fun r : Roster => r.members[n]) ((congrArg (·.roster) frame).trans taken.roster)).trans
        (Roster.recordTaken_members ..)
    · exact (congrArg Roster.digest ((congrArg (·.roster) frame).trans taken.roster)).trans (Roster.recordTaken_digest ..)
    · exact beat.1.trans ((congrArg (·.pres.beat) frame).trans (congrArg Presence.beat taken.pres))
    · exact beat.2.trans ((congrArg (·.pres.beatPending) frame).trans (congrArg Presence.beatPending taken.pres))
    · have same := silent out
      exact ⟨(congrArg (·.cu) same).trans taken.cu,
        (congrArg (fun t : State => t.port.counters[(10 : Fin 28)]) same).trans dropped⟩
    · have begins : u.designate f.sender = u.beginServe f.sender := by
        rw [serves here, State.serveRequest, if_pos]
        rw [taken.cu, serve, Option.map_some, is]
      refine ⟨(congrArg (·.cu) begins).trans ((beginServe_cu ..).trans ?_),
        (congrArg (fun t : State => t.port.counters[(10 : Fin 28)]) begins).trans dropped⟩
      rw [taken.cu, base, taken.table, capture_of_recorded taken.roster taken.table]
      rfl
    · have kept := (serves here).trans (serveRequest_of_other (by rw [taken.cu]; exact none_))
      rw [taken.cu] at kept
      generalize waits : ({ (if f.sender ∉ s.cu.serveList ∧ 4 ≤ s.cu.serveList.length then u.bump .requestsDropped else u) with
        cu := { s.cu with serveList := servesAfter s.cu.serveList f.sender } } : State) = w at kept
      have cu : w.cu = { s.cu with serveList := servesAfter s.cu.serveList f.sender } := by rw [← waits]
      have unchanged : w.order = u.order ∧ w.table = u.table ∧ w.roster = u.roster := by
        rw [← waits]
        split <;> exact ⟨rfl, rfl, rfl⟩
      have counter : (u.designate f.sender).port.counters[(10 : Fin 28)] = w.port.counters[(10 : Fin 28)] := by
        rw [kept, startNextServe_frame]
      refine ⟨fun full => counter.trans ?_, fun room => counter.trans ?_, fun busy => ?_, fun idle x rest listed => ?_⟩
      · rw [← waits, if_pos full]
        exact (State.bump_self u .requestsDropped).trans (congrArg satInc dropped)
      · rw [← waits, if_neg room]
        exact dropped
      · rw [kept, State.startNextServe_of_busy (by rw [cu]; exact busy), cu]
        rfl
      · rw [kept, State.startNextServe_of_cons (x := x) (rest := rest) (by rw [cu]; exact idle) (by rw [cu]; exact listed), beginServe_cu]
        dsimp only
        have captures := capture_of_recorded (s := s) (w := { w with cu := { w.cu with serveList := rest } }) (x := f.sender)
          (q := f.seq) (unchanged.2.2.trans taken.roster) (unchanged.2.1.trans taken.table)
        rw [captures, cu, unchanged.1, unchanged.2.1, base, taken.table]
        rfl

end Sys2Proof.Machine

/-! # What a kept FAULT changes in the application of a heard frame (R64, log 31)

A FAULT kept changes which entry is on the line, and nothing else that an application reads: an application over another
line is the same application, but for what it does to the slots. -/

namespace Sys2Proof.Machine

/-- The state over another line, with another slot unit. -/
def State.relined (s : State) (l : LineIf) (x : SlotUnit) : State := { s with line := l, slots := x }

section Relined

variable (s : State) (l : LineIf) (x : SlotUnit)

theorem relined_ite (c : Prop) [Decidable c] (t u : State) :
    (if c then t else u).relined l x = if c then t.relined l x else u.relined l x :=
  apply_ite (fun s : State => s.relined l x) c t u

theorem relined_emit (e : Event) : (s.relined l x).emit e = (s.emit e).relined l x := rfl

theorem relined_bump (c : Counter) : (s.relined l x).bump c = (s.bump c).relined l x := rfl

theorem relined_record (q : Seq) : (s.relined l x).record q = (s.record q).relined l x := by
  unfold State.record
  rw [relined_ite]
  rfl

theorem relined_enterBehind : (s.relined l x).enterBehind = s.enterBehind.relined l x := by
  unfold State.enterBehind
  rw [relined_ite]
  rfl

theorem relined_keepBack (own : Bool) (f : Frame) (first : Bool) :
    (s.relined l x).keepBack own f first = (s.keepBack own f first).relined l x := rfl

theorem relined_enterJoining (join : Bool) (c : Cause) (q : Option Seq) :
    (s.relined l x).enterJoining join c q = (s.enterJoining join c q).relined l x := by
  unfold State.enterJoining
  dsimp only
  rw [relined_ite]
  rfl

theorem relined_enterOut (st : StationState) (c : Cause) (q : Option Seq) :
    (s.relined l x).enterOut st c q = (s.enterOut st c q).relined l x := rfl

theorem relined_enterListening (c : Cause) (q : Option Seq) :
    (s.relined l x).enterListening c q = (s.enterListening c q).relined l x := rfl

theorem relined_adoptGroup (n : StationNo) (d : Half) (q : Seq) :
    (s.relined l x).adoptGroup n d q = (s.adoptGroup n d q).relined l x := rfl

theorem relined_heardFrom (n : StationNo) : (s.relined l x).heardFrom n = (s.heardFrom n).relined l x := by
  unfold State.heardFrom
  rw [relined_ite]
  rfl

theorem relined_restartListen : (s.relined l x).restartListen = s.restartListen.relined l x := by
  unfold State.restartListen
  rw [relined_ite]
  rfl

theorem relined_vetoed (v : Vote) : (s.relined l x).vetoed v = (s.vetoed v).relined l x := by
  cases v with
  | acceptLater =>
    simp only [State.vetoed, relined_enterBehind]
    rw [relined_ite]
    rfl
  | veto =>
    simp only [State.vetoed, relined_enterBehind]
    rw [relined_ite]
    rfl
  | _ => rfl

@[simp] theorem relined_roster : (s.relined l x).roster = s.roster := rfl
@[simp] theorem relined_mem : (s.relined l x).mem = s.mem := rfl
@[simp] theorem relined_order : (s.relined l x).order = s.order := rfl
@[simp] theorem relined_cu : (s.relined l x).cu = s.cu := rfl
@[simp] theorem relined_isMe (n : StationNo) : (s.relined l x).isMe n = s.isMe n := rfl

theorem relined_applyJoin (n : StationNo) (d : Half) (own : Bool) (q : Seq) :
    (s.relined l x).applyJoin n d own q = ((s.applyJoin n d own q).1.relined l x, (s.applyJoin n d own q).2) := by
  by_cases ok : s.roster.digest = some d <;> cases me : s.isMe n <;> cases was : s.roster.isMember n <;>
    simp only [State.applyJoin, relined_roster, relined_isMe, ok, me, was, if_true, if_false, decide_true, decide_false,
      Bool.false_eq_true] <;> rfl

theorem relined_applyLeave (n : StationNo) (own : Bool) (q : Seq) :
    (s.relined l x).applyLeave n own q = ((s.applyLeave n own q).1.relined l x, (s.applyLeave n own q).2) := by
  cases me : s.isMe n <;> cases was : s.roster.isMember n <;>
    simp only [State.applyLeave, relined_roster, relined_isMe, relined_mem, me, was, if_true, if_false,
      Bool.false_eq_true] <;> rfl

theorem relined_applyEvict (n : StationNo) (target : Byte) (q : Seq) :
    (s.relined l x).applyEvict n target q = ((s.applyEvict n target q).1.relined l x, (s.applyEvict n target q).2) := by
  simp only [State.applyEvict, relined_roster, relined_isMe, relined_mem]
  by_cases near : target.toNat < 16
  · simp only [dif_pos near]
    by_cases gone : (s.roster.isMember ⟨target.toNat, near⟩ && decide (⟨target.toNat, near⟩ ≠ n)) = true
    · by_cases me : s.isMe ⟨target.toNat, near⟩ = true
      · simp only [gone, me, if_true]
        cases ownLoss s.mem.state .evicted <;> rfl
      · simp only [gone, me, if_true, if_false, Bool.false_eq_true]
        rfl
    · simp only [gone, if_false, Bool.false_eq_true]
      rfl
  · simp only [dif_neg near]
    rfl

theorem relined_applyKind (f : Frame) (own : Bool) :
    (s.relined l x).applyKind f own = ((s.applyKind f own).1.relined l x, (s.applyKind f own).2) := by
  unfold State.applyKind
  cases f.body with
  | join => exact relined_applyJoin ..
  | leave => exact relined_applyLeave ..
  | evict => exact relined_applyEvict ..
  | _ => rfl

theorem relined_membershipStep (f : Frame) (own : Bool) :
    (s.relined l x).membershipStep f own =
      ((s.membershipStep f own).1.relined l x, (s.membershipStep f own).2) := by
  have applied := relined_applyKind { s with roster := s.roster.recordTaken f.sender f.seq } l x f own
  have recorded : ({ s.relined l x with roster := (s.relined l x).roster.recordTaken f.sender f.seq } : State) =
      State.relined { s with roster := s.roster.recordTaken f.sender f.seq } l x := rfl
  have foreign : (s.relined l x).isForeign f own = s.isForeign f own := rfl
  simp only [State.membershipStep, recorded, applied, foreign]
  cases s.isForeign f own <;> rfl

theorem relined_makeMove (m : Move) (q : Seq) : (s.relined l x).makeMove m q = (s.makeMove m q).relined l x := by
  cases m with
  | loseMembership c => exact relined_enterJoining { s with cu := s.cu.dropServes } l x true c (some q)
  | _ => rfl

theorem relined_beginServe (n : StationNo) : (s.relined l x).beginServe n = (s.beginServe n).relined l x := rfl

theorem relined_startNextServe : (s.relined l x).startNextServe = s.startNextServe.relined l x := by
  unfold State.startNextServe
  simp only [relined_cu]
  split <;> rfl

theorem relined_serveRequest (n : StationNo) : (s.relined l x).serveRequest n = (s.serveRequest n).relined l x := by
  unfold State.serveRequest
  simp only [relined_cu, relined_bump, relined_startNextServe]
  repeat' split
  · rfl
  · rfl
  · rfl
  · exact relined_startNextServe { s with cu := { s.cu with serveList := s.cu.serveList ++ [n] } } l x

theorem relined_designate (n : StationNo) : (s.relined l x).designate n = (s.designate n).relined l x := by
  unfold State.designate
  simp only [relined_roster, relined_isMe, relined_order, relined_serveRequest]
  split
  · rw [relined_ite]
    rfl
  · rfl

theorem relined_compareFingerprint (f : Frame) (own : Bool) (carried kept : Half) :
    (s.relined l x).compareFingerprint f own carried kept = (s.compareFingerprint f own carried kept).relined l x := by
  by_cases same : carried = kept
  · simp only [State.compareFingerprint, if_pos same]
  · rw [compareFingerprint_frame _ f own carried kept same, compareFingerprint_frame _ f own carried kept same,
      relined_ite, ← relined_enterBehind]
    rfl

theorem relined_lastStep (f : Frame) (own : Bool) (kept : Half) :
    (s.relined l x).lastStep f own kept = (s.lastStep f own kept).relined l x := by
  unfold State.lastStep
  cases f.body with
  | syncreq => exact relined_designate ..
  | beat => exact relined_compareFingerprint ..
  | _ => rfl

end Relined

/-! ### Rows that leave a slot as it is -/

/-- How far a slot is on its way through reports of this seq: no row leads back. -/
def Slot.rank (x : Slot) (seq : Seq) : Nat :=
  match x.state with
  | .waiting | .cancelling => 0
  | .releasing => if x.grantedAt = some seq then 2 else 1
  | .held => 2
  | .free | .pending => 3

section Rank

variable (t : Tag) (x : Slot) (onLine : Bool) (seq : Seq)

theorem removalRow_rank : x.rank seq ≤ (removalRow t x onLine seq).1.rank seq := by
  unfold removalRow Slot.rank
  cases state : x.state <;> cases onLine <;> simp [state, Slot.empty]
  split <;> omega

theorem grantRow_rank : x.rank seq ≤ (grantRow t x onLine seq).1.rank seq := by
  unfold grantRow Slot.rank
  cases state : x.state <;> cases onLine <;> simp [state]
  all_goals split <;> omega

variable {t x onLine seq} {other : Bool} (line : other = onLine ∨ onLine = false)

include line

/-- A row that leads nowhere leaves the slot, and so does the row with the entry of a kept FAULT on the line. -/
theorem removalRow_of_rank (still : (removalRow t x onLine seq).1.rank seq = x.rank seq) :
    removalRow t x onLine seq = (x, [], false) ∧ removalRow t x other seq = (x, [], false) := by
  unfold removalRow Slot.rank at *
  obtain rfl | rfl := line
  · cases state : x.state <;> cases other <;> simp_all [Slot.empty]
    split at still <;> omega
  · cases state : x.state <;> simp_all [Slot.empty]
    split at still <;> omega

theorem grantRow_of_rank (still : (grantRow t x onLine seq).1.rank seq = x.rank seq) :
    grantRow t x onLine seq = (x, [], false) ∧ grantRow t x other seq = (x, [], false) := by
  have settled (granted : x.grantedAt = some seq) : ({ x with grantedAt := some seq } : Slot) = x := by rw [← granted]
  unfold grantRow Slot.rank at *
  obtain rfl | rfl := line
  · by_cases mark : x.mark = .releaseAfter <;> cases state : x.state <;> cases other <;> simp_all
  · cases state : x.state <;> simp_all

end Rank

/-! ### A report that leaves the slots as they are -/

/-- The lines differ at most by a FAULT kept, where nothing else is on the line. -/
def LineIf.Veils (l m : LineIf) : Prop := m.onLine = l.onLine ∨ l.onLine = none

theorem slotOnLine_of_veils {s : State} {l : LineIf} (veils : s.line.Veils l) (k : Tag) :
    (s.relined l s.slots).slotOnLine k = s.slotOnLine k ∨ s.slotOnLine k = false := by
  obtain same | none_ := veils
  · left
    have line : (s.relined l s.slots).line.onLine = s.line.onLine := same
    have slots : (s.relined l s.slots).slots = s.slots := rfl
    simp only [State.slotOnLine, State.entryOnLine, line, slots]
  · right
    unfold State.slotOnLine State.entryOnLine
    rw [none_]
    cases s.slots.entryOf k <;> simp

/-- A rule that never leads a slot back, and whose idle rows are idle with the entry of a FAULT on the line too. -/
structure RowRule.Forward (rule : RowRule) (seq : Seq) : Prop where
  up : ∀ t x b, x.rank seq ≤ (rule t x b).1.rank seq
  still : ∀ {t x b b'}, b' = b ∨ b = false → (rule t x b).1.rank seq = x.rank seq →
    rule t x b = (x, [], false) ∧ rule t x b' = (x, [], false)

theorem removalRow_forward (seq : Seq) : RowRule.Forward (fun t x b => removalRow t x b seq) seq :=
  ⟨fun t x b => removalRow_rank t x b seq, removalRow_of_rank⟩

theorem grantRow_forward (seq : Seq) : RowRule.Forward (fun t x b => grantRow t x b seq) seq :=
  ⟨fun t x b => grantRow_rank t x b seq, grantRow_of_rank⟩

section Forward

variable {rule : RowRule} {seq : Seq} (h : rule.Forward seq)

include h

theorem takesRow_rank (s : State) (t k : Tag) :
    (s.slots.slots[k]).rank seq ≤ ((s.takesRow t (s.rowOf rule t)).slots.slots[k]).rank seq := by
  have slot := s.slots.takes_slot t k (s.rowOf rule t)
  change _ ≤ ((s.slots.takes t (s.rowOf rule t)).slots[k]).rank seq
  rw [slot]
  split
  · next here =>
    subst here
    exact h.up ..
  · exact le_rfl

theorem foldl_rank (ts : List Tag) (s : State) (k : Tag) :
    (s.slots.slots[k]).rank seq ≤
      ((ts.foldl (fun u t => u.takesRow t (u.rowOf rule t)) s).slots.slots[k]).rank seq := by
  induction ts generalizing s with
  | nil => exact le_rfl
  | cons t ts ih => exact (takesRow_rank h s t k).trans (ih _)

/-- Rows that leave every slot where it was left nothing else changed, whatever FAULT is kept. -/
theorem foldl_of_rank {s : State} {l : LineIf} (veils : s.line.Veils l) (ts : List Tag)
    (still : ∀ k : Tag, ((ts.foldl (fun u t => u.takesRow t (u.rowOf rule t)) s).slots.slots[k]).rank seq =
      (s.slots.slots[k]).rank seq) :
    ts.foldl (fun u t => u.takesRow t (u.rowOf rule t)) s = s ∧
      ts.foldl (fun u t => u.takesRow t (u.rowOf rule t)) (s.relined l s.slots) = s.relined l s.slots := by
  induction ts with
  | nil => exact ⟨rfl, rfl⟩
  | cons t ts ih =>
    have here : ((s.takesRow t (s.rowOf rule t)).slots.slots[t]).rank seq = (s.slots.slots[t]).rank seq :=
      le_antisymm ((foldl_rank h ts _ t).trans_eq (still t)) (takesRow_rank h s t t)
    have slot := s.slots.takes_slot t t (s.rowOf rule t)
    rw [if_pos rfl] at slot
    have rank : (s.rowOf rule t).1.rank seq = (s.slots.slots[t]).rank seq := by
      rw [← here]
      exact congrArg (·.rank seq) slot.symm
    obtain ⟨row, lined⟩ := h.still (slotOnLine_of_veils veils t) rank
    have same : s.takesRow t (s.rowOf rule t) = s := by
      rw [State.rowOf, row]
      exact s.takesRow_self t
    have same' : (s.relined l s.slots).takesRow t ((s.relined l s.slots).rowOf rule t) = s.relined l s.slots := by
      rw [State.rowOf]
      refine (congrArg ((s.relined l s.slots).takesRow t) lined).trans ?_
      exact (s.relined l s.slots).takesRow_self t
    rw [List.foldl_cons, same] at still
    rw [List.foldl_cons, List.foldl_cons, same, same']
    exact ih still

end Forward

theorem foldl_ownRemoved_rows (ts : List Tag) (seq : Seq) (s : State) :
    ts.foldl (fun u t => u.ownRemoved t seq) s =
      ts.foldl (fun u t => u.takesRow t (u.rowOf (fun t x b => removalRow t x b seq) t)) s :=
  congrArg (fun g => ts.foldl g s) (funext fun u => funext fun t => ownRemoved_eq u t seq)

theorem foldl_ownGrant_rows (ts : List Tag) (seq : Seq) (s : State) :
    ts.foldl (fun u t => u.ownGrant t seq) s =
      ts.foldl (fun u t => u.takesRow t (u.rowOf (fun t x b => grantRow t x b seq) t)) s :=
  congrArg (fun g => ts.foldl g s) (funext fun u => funext fun t => ownGrant_eq u t seq)

/-- R147: a report about another's frame that leaves the slots as they were left everything as it was. -/
theorem settleReport_of_still {s : State} {l : LineIf} (veils : s.line.Veils l) {f : Frame} {entry : Option Tag} {rep : Report}
    (still : (s.settleReport f false entry rep).slots = s.slots) :
    s.settleReport f false entry rep = s ∧
      (s.relined l s.slots).settleReport f false entry rep = s.relined l s.slots := by
  have gone : (s.relined l s.slots).goneTags f false rep = s.goneTags f false rep := rfl
  have granted : (s.relined l s.slots).grantedTags f false rep = s.grantedTags f false rep := rfl
  rw [settleReport_eq] at still ⊢
  rw [settleReport_eq, gone, granted]
  rw [foldl_ownRemoved_rows, foldl_ownGrant_rows] at still ⊢
  rw [foldl_ownRemoved_rows, foldl_ownGrant_rows]
  simp only [Bool.false_eq_true, if_false] at still ⊢
  have middle (k : Tag) := le_antisymm
    ((foldl_rank (grantRow_forward f.seq) (s.grantedTags f false rep) _ k).trans_eq
      (congrArg (fun u : SlotUnit => (u.slots[k]).rank f.seq) still))
    (foldl_rank (removalRow_forward f.seq) (s.goneTags f false rep) s k)
  obtain ⟨first, first'⟩ := foldl_of_rank (removalRow_forward f.seq) veils _ middle
  rw [first] at still
  rw [first, first']
  exact foldl_of_rank (grantRow_forward f.seq) veils _ fun k => congrArg (fun u : SlotUnit => (u.slots[k]).rank f.seq) still

/-! ### Cleared slots with a FAULT kept (R140, R160) -/

/-- The queue of `x` is that of `u`, or keeps purged entries of this attempt alone, where `u` has none. -/
def SlotUnit.QueuesFor (u : SlotUnit) (a : Attempt) (x : SlotUnit) : Prop :=
  x = u ∨ ∃ q, x = { u with queue := q } ∧ u.queue = [] ∧ ∀ e ∈ q, e.purged = true ∧ a.source = .queue e.id e.kind

/-- The lines differ at most by this attempt, a FAULT kept. -/
def LineIf.VeilsFor (l m : LineIf) (a : Attempt) : Prop := m.onLine = l.onLine ∨ l.onLine = none ∧ m.onLine = some a

theorem LineIf.VeilsFor.veils {l m : LineIf} {a : Attempt} (h : l.VeilsFor m a) : l.Veils m := h.imp_right And.left

section Veiled

variable {s : State} {l : LineIf} {a : Attempt}

theorem purgedQueue_relined (veils : s.line.VeilsFor l a) :
    (s.relined l s.slots).purgedQueue = s.purgedQueue ∨
      s.purgedQueue = [] ∧ ∀ e ∈ (s.relined l s.slots).purgedQueue, e.purged = true ∧ a.source = .queue e.id e.kind := by
  have slots : (s.relined l s.slots).slots = s.slots := rfl
  obtain same | ⟨none_, kept⟩ := veils
  · left
    have line : (s.relined l s.slots).line.onLine = s.line.onLine := same
    simp only [State.purgedQueue, State.entryOnLine, line, slots]
  · right
    have line : (s.relined l s.slots).line.onLine = some a := kept
    simp only [State.purgedQueue, State.entryOnLine, line, none_, slots, Option.map_none, Option.map_some, Option.some.injEq]
    refine ⟨by simp, fun e mem => ?_⟩
    obtain ⟨e', mem', rfl⟩ := List.mem_map.1 mem
    exact ⟨rfl, by simpa using (List.mem_filter.1 mem').2⟩

theorem clearSlots_relined (veils : s.line.VeilsFor l a) (k : EventKind) (c : Cause) (q : Option Seq) :
    ∃ x, (s.clearSlots k c q).slots.QueuesFor a x ∧
      (s.relined l s.slots).clearSlots k c q = (s.clearSlots k c q).relined l x := by
  rw [State.clearSlots_eq, State.clearSlots_eq]
  refine ⟨_, ?_, rfl⟩
  obtain same | ⟨none_, kept⟩ := purgedQueue_relined veils
  · exact .inl (by rw [same]; rfl)
  · exact .inr ⟨_, rfl, none_, kept⟩

end Veiled

/-! ### The outcome of a heard frame with a FAULT kept -/

theorem makeMove_slots (s : State) (m : Move) (q : Seq) : (s.makeMove m q).slots = s.slots := by
  cases m with
  | loseMembership c =>
    simp only [State.makeMove, State.enterJoining]
    split <;> rfl
  | _ => rfl

theorem afterMove_slots (s : State) (f : Frame) (own : Bool) : (s.afterMove f own).slots = s.slots :=
  (makeMove_slots _ _ _).trans (membershipStep_sameButRoster (s.afterTable f) f own).slots

/-- R92: only an own JOIN makes a station a MEMBER. -/
theorem moveOf_ne_becomeMember (s : State) (f : Frame) : s.moveOf f false ≠ .becomeMember := by
  have asked : s.moveAsked f false ≠ .becomeMember := by
    unfold State.moveAsked
    have loss (st : StationState) (c : Cause) : ownLoss st c ≠ .becomeMember := by cases st <;> simp [ownLoss]
    cases f.body <;> simp only [ne_eq, reduceCtorEq, not_false_eq_true, Bool.false_eq_true, if_false]
    · split <;> simp
    · split
      · split
        · exact loss _ _
        · simp
      · simp
    · split
      · split
        · exact loss _ _
        · simp
      · simp
  rw [moveOf_eq]
  cases move : s.moveAsked f false with
  | becomeMember => exact absurd move asked
  | stay => cases (s.afterMembership f false).1.roster.dissolvedBy f <;> simp [Move.withDissolution]
  | loseMembership => cases (s.afterMembership f false).1.roster.dissolvedBy f <;> simp [Move.withDissolution]
  | _ => simp [Move.withDissolution]

theorem relined_afterMove (s : State) (l : LineIf) (x : SlotUnit) (f : Frame) (own : Bool) :
    (s.relined l x).afterMove f own = (s.afterMove f own).relined l x ∧
      (s.relined l x).moveOf f own = s.moveOf f own := by
  have table : (s.relined l x).afterTable f = (s.afterTable f).relined l x := rfl
  have step := relined_membershipStep (s.afterTable f) l x f own
  have move : (s.relined l x).moveOf f own = s.moveOf f own := by
    rw [State.moveOf, State.moveOf, State.afterMembership, table, step]
    rfl
  refine ⟨?_, move⟩
  rw [State.afterMove, move, State.afterMembership, table, step, relined_makeMove]
  rfl

theorem lastStep_keeps (u : State) (f : Frame) (own : Bool) (kept : Half) :
    (u.lastStep f own kept).slots = u.slots ∧ (u.lastStep f own kept).mem = u.mem := by
  unfold State.lastStep
  cases f.body with
  | syncreq =>
    have frame := designate_frame u f.sender
    exact ⟨congrArg (·.slots) frame, congrArg (·.mem) frame⟩
  | beat fp =>
    dsimp only
    by_cases same : fp = kept
    · rw [State.compareFingerprint, if_pos same]
      exact ⟨rfl, rfl⟩
    · rw [compareFingerprint_frame u f own fp kept same]
      split
      · rw [State.enterBehind_frame]
        exact ⟨rfl, rfl⟩
      · exact ⟨rfl, rfl⟩
  | _ => exact ⟨rfl, rfl⟩

/-- What is looked for: the same state over the other line, the send queue apart. -/
def State.Veiled (s : State) (l : LineIf) (a : Attempt) (u v : State) : Prop :=
  (u.slots = s.slots ∨ u.mem.state ≠ s.mem.state) → ∃ x, u.slots.QueuesFor a x ∧ v = u.relined l x

section Outcome

variable {s : State} {l : LineIf} {a : Attempt} (veils : s.line.VeilsFor l a)

theorem State.Veiled.of_relined {u v : State} (same : v = u.relined l u.slots) : s.Veiled l a u v :=
  fun _ => ⟨_, .inl rfl, same⟩

include veils

theorem applyFrame_veiled (f : Frame) :
    s.Veiled l a (s.applyFrame true false none f) ((s.relined l s.slots).applyFrame true false none f) := by
  obtain ⟨moved, move⟩ := relined_afterMove s l s.slots f false
  have slots := afterMove_slots s f false
  have line : (s.afterMove f false).line = s.line :=
    congrArg GroupRest.line ((makeMove_groupRest _ _ _).trans (membershipStep_groupRest (s.afterTable f) f false))
  have fingerprint : (s.relined l s.slots).fingerprint = s.fingerprint := rfl
  have report : (s.relined l s.slots).reportOf f = s.reportOf f := rfl
  intro still
  rw [applyFrame_eq] at still ⊢
  rw [applyFrame_eq, fingerprint]
  simp only [if_true] at still ⊢
  obtain ⟨lastSlots, lastMem⟩ := lastStep_keeps (s.afterSlots f false none) f false s.fingerprint
  rw [lastSlots, lastMem] at still
  have settles : ∃ x, (s.afterSlots f false none).slots.QueuesFor a x ∧
      (s.relined l s.slots).afterSlots f false none = (s.afterSlots f false none).relined l x := by
    have reload (u : State) : u.reload false = u := rfl
    unfold State.afterSlots at still ⊢
    rw [reload] at still
    rw [moved, move, report, reload, reload]
    have veils' : (s.afterMove f false).line.VeilsFor l a := by rw [line]; exact veils
    have cleared := clearSlots_relined veils'
    rw [slots] at cleared
    cases is : s.moveOf f false with
    | becomeMember => exact absurd is (moveOf_ne_becomeMember s f)
    | stay =>
      have mem : (s.afterMove f false).mem = s.mem := by
        rw [State.afterMove, is]
        exact (membershipStep_sameButRoster (s.afterTable f) f false).mem
      rw [is] at still
      simp only [State.settleSlots] at still ⊢
      have kept := settleReport_slotRest (s.afterMove f false) f false none (s.reportOf f)
      have stays : ((s.afterMove f false).settleReport f false none (s.reportOf f)).mem = s.mem :=
        (congrArg SlotRest.mem kept).trans mem
      rw [stays, ← slots] at still
      obtain ⟨same, same'⟩ := settleReport_of_still veils'.veils (still.resolve_right fun moves => moves rfl)
      rw [slots] at same'
      rw [same, same']
      exact ⟨_, .inl slots.symm, rfl⟩
    | loseMembership c => exact cleared ..
    | leaveGroup st c => exact cleared ..
    | dissolve => exact cleared ..
  obtain ⟨x, queues, eq⟩ := settles
  exact ⟨x, by rw [lastSlots]; exact queues, by rw [eq, relined_lastStep]⟩

theorem clearSlots_veiled {u : State} (line : u.line = s.line) (slots : u.slots = s.slots) (k : EventKind) (c : Cause)
    (q : Option Seq) : s.Veiled l a (u.clearSlots k c q) ((u.relined l s.slots).clearSlots k c q) := by
  rw [← slots]
  exact fun _ => clearSlots_relined (by rw [line]; exact veils) k c q

theorem putOut_veiled {u : State} (line : u.line = s.line) (slots : u.slots = s.slots) (st : StationState) (c c' : Cause)
    (q q' : Option Seq) (k : EventKind) :
    s.Veiled l a (u.putOut st c c' q q' k) ((u.relined l s.slots).putOut st c c' q q' k) := by
  unfold State.putOut
  rw [relined_enterOut]
  exact clearSlots_veiled veils (u := u.enterOut st c q) (by exact line) (by exact slots) k c' q'

theorem adopt_veiled (f : Frame) (d : Half) : s.Veiled l a (s.adopt f d) ((s.relined l s.slots).adopt f d) := by
  have mem : (s.relined l s.slots).mem = s.mem := rfl
  by_cases foreign : s.mem.number = some f.sender
  · rw [adopt_of_foreign foreign, adopt_of_foreign (by rw [mem]; exact foreign), relined_adoptGroup, relined_emit]
    exact putOut_veiled veils (u := (s.adoptGroup f.sender d f.seq).emit (duplicateEvent f)) (by rfl) (by rfl) _ _ _ _ _ _
  · have joins : (s.relined l s.slots).adoptJoining f d = (s.adoptJoining f d).relined l s.slots :=
      relined_enterJoining (s.adoptGroup f.sender d f.seq) l s.slots true .adopted (some f.seq)
    have frame := s.adoptJoining_frame f d
    have slots : (s.adoptJoining f d).slots = s.slots := congrArg (·.slots) frame
    have line : (s.adoptJoining f d).line = s.line := congrArg (·.line) frame
    by_cases member : s.mem.state = .member
    · rw [adopt_of_member d foreign member, adopt_of_member (s := s.relined l s.slots) d foreign member, joins]
      exact clearSlots_veiled veils line slots _ _ _
    by_cases leaving : s.mem.state = .leaving
    · rw [adopt_of_leaving d foreign leaving, adopt_of_leaving (s := s.relined l s.slots) d foreign leaving, relined_adoptGroup]
      exact putOut_veiled veils (u := s.adoptGroup f.sender d f.seq) (by rfl) (by rfl) _ _ _ _ _ _
    have stays : s.adopt f d = s.adoptJoining f d := by
      simp only [State.adopt, State.isMe, foreign, decide_false, Bool.false_eq_true, if_false]
      cases state : s.mem.state with
      | member => exact absurd state member
      | leaving => exact absurd state leaving
      | _ => rfl
    have stays' : (s.relined l s.slots).adopt f d = (s.relined l s.slots).adoptJoining f d := by
      simp only [State.adopt, State.isMe, mem, foreign, decide_false, Bool.false_eq_true, if_false]
      cases state : s.mem.state with
      | member => exact absurd state member
      | leaving => exact absurd state leaving
      | _ => rfl
    rw [stays, stays', joins]
    exact fun _ => ⟨_, .inl slots.symm, rfl⟩

omit veils in
theorem State.Veiled.of_commutes {u v : State} (slots : u.slots = s.slots) (same : v = u.relined l s.slots) :
    s.Veiled l a u v := fun _ => ⟨_, .inl slots.symm, same⟩

omit veils in
theorem State.Veiled.of_base {r u v : State} (h : r.Veiled l a u v) (slots : r.slots = s.slots) (mem : r.mem = s.mem) :
    s.Veiled l a u v := by
  unfold State.Veiled at *
  rwa [slots, mem] at h

omit veils in
theorem record_keeps (s : State) (q : Seq) : (s.record q).slots = s.slots ∧ (s.record q).mem = s.mem ∧ (s.record q).line = s.line := by
  unfold State.record
  split <;> exact ⟨rfl, rfl, rfl⟩

theorem taken_veiled (f : Frame) (v : Vote) : s.Veiled l a (s.taken f v) ((s.relined l s.slots).taken f v) := by
  obtain ⟨slots, mem, line⟩ := record_keeps s f.seq
  have adopts (d : Half) : s.Veiled l a ((s.record f.seq).adopt f d) (((s.record f.seq).relined l s.slots).adopt f d) := by
    rw [← slots]
    exact (adopt_veiled (s := s.record f.seq) (by rw [line]; exact veils) f d).of_base slots mem
  have behind : (s.record f.seq).enterBehind.slots = s.slots := (congrArg (·.slots) (State.enterBehind_frame _)).trans slots
  unfold State.taken
  rw [relined_order, relined_mem, relined_record]
  cases s.order.step with
  | inStep =>
    cases v with
    | accept => exact applyFrame_veiled veils f
    | acceptLater => exact .of_commutes behind (by dsimp only; rw [relined_enterBehind, relined_keepBack])
    | _ => exact .of_commutes slots rfl
  | behind =>
    cases f.body with
    | found d => exact adopts d
    | _ => exact .of_commutes slots rfl
  | off =>
    have hears : s.Veiled l a ((s.record f.seq).hearTaken f) (((s.record f.seq).relined l s.slots).hearTaken f) := by
      unfold State.hearTaken
      cases f.body with
      | found d => exact adopts d
      | _ =>
        refine .of_commutes ?_ (by dsimp only; rw [relined_enterJoining, relined_enterBehind, relined_keepBack])
        have joined : ((s.record f.seq).enterJoining false .heard (some f.seq)).slots = (s.record f.seq).slots := by
          rw [enterJoining_eq]
        exact (congrArg (·.slots) (State.enterBehind_frame _)).trans (joined.trans slots)
    cases s.mem.state with
    | listening => exact hears
    | founding => exact hears
    | _ => exact .of_commutes slots rfl

omit veils in
theorem State.Veiled.heardFrom {u v : State} (h : s.Veiled l a u v) (n : StationNo) :
    s.Veiled l a (u.heardFrom n) (v.heardFrom n) := by
  have slots : (u.heardFrom n).slots = u.slots := congrArg (·.slots) (u.heardFrom_eq n)
  have mem : (u.heardFrom n).mem = u.mem := congrArg (·.mem) (u.heardFrom_eq n)
  intro still
  rw [slots, mem] at still
  obtain ⟨x, queues, same⟩ := h still
  exact ⟨x, by rw [slots]; exact queues, by rw [same, relined_heardFrom]⟩

omit veils in
theorem vetoed_slots (s : State) (v : Vote) : (s.vetoed v).slots = s.slots :=
  congrArg (·.slots) (vetoed_frame (s := s) (v := v))

theorem outcomeHeard_veiled (r : Received) (v : Vote) (b : Bool) :
    s.Veiled l a (s.outcomeHeard r v b) ((s.relined l s.slots).outcomeHeard r v b) := by
  have vetoed : s.Veiled l a (s.vetoed v) ((s.relined l s.slots).vetoed v) :=
    .of_commutes (vetoed_slots s v) (relined_vetoed _ _ _ v)
  cases r with
  | good f =>
    cases b with
    | true =>
      have taken := taken_veiled (s := s.bump (.takenFrom f.sender)) (by exact veils) f v
      exact (taken.of_base (s := s) rfl rfl).heardFrom f.sender
    | false =>
      refine State.Veiled.heardFrom (.of_commutes ?_ (by rw [relined_restartListen, relined_vetoed])) f.sender
      rw [vetoed_slots, State.restartListen_eq]
  | failed =>
    cases b with
    | true => exact .of_commutes rfl rfl
    | false => exact vetoed
  | malformed =>
    cases b with
    | true => exact .of_commutes rfl rfl
    | false => exact vetoed

end Outcome

end Sys2Proof.Machine

/-! # An attempt lost or faulted (R63, R64) -/

namespace Sys2Proof.Machine

/-! ### The bit that differs -/

section Differs

variable {f : Frame} {n : Nat} {read : List Bool} {x y : Bool} (sent : f.levels[n]? = some y)
  (back : read = f.levels.take n ++ [x])

include sent back

theorem Frame.length_of_back : read.length = n + 1 := by
  obtain ⟨within, _⟩ := List.getElem?_eq_some_iff.1 sent
  rw [back, List.length_append, List.length_take, Nat.min_eq_left within.le, List.length_singleton]

theorem Frame.differsAt_eq : f.differsAt read = (x != y) := by
  have length := Frame.length_of_back sent back
  have last : read.getLast? = some x := by rw [back]; simp
  have first : read.dropLast = f.levels.take n := by rw [back]; simp
  simp only [Frame.differsAt, last, length, Nat.add_sub_cancel, sent, first, decide_true, Bool.and_true]

theorem Frame.losesAt_iff : f.losesAt read = true ↔ x ≠ y ∧ n < f.arbitration ∧ x = false := by
  have last : read.getLast? = some x := by rw [back]; simp
  simp only [Frame.losesAt, Frame.differsAt_eq sent back, Frame.length_of_back sent back, last, Bool.and_eq_true,
    decide_eq_true_eq, bne_iff_ne, Option.some.injEq, and_assoc, Nat.succ_le_iff]

end Differs

/-! ### ATTEMPT_LOST and ATTEMPT_FAULT -/

section Attempts

variable {s : State} {a : Attempt} {read levels : List Bool} {n : Nat} (on : s.power = .on) (rx : s.line.rx = some read)

include on rx

theorem exec_attemptLost_of_lost (offering : s.line.tx = .offering a)
    (back : read ++ levels = a.frame.levels.take n ++ [false]) (sent : a.frame.levels[n]? = some true)
    (field : n < a.frame.arbitration) : exec (.attemptLost levels) s =
      .next (State.ownLost { s with line := { s.line with tx := .idle, rx := some (read ++ levels) } } a) := by
  have after : s.line.frameAfter levels = some (read ++ levels) := by simp [LineIf.frameAfter, rx]
  have loses := (Frame.losesAt_iff sent back).2 ⟨nofun, field, rfl⟩
  change execAttemptLost s levels = _
  rw [execAttemptLost, happening_of_enabled (by simp [on])]
  simp only [offering, after, loses, if_true]

theorem exec_attemptFault_of_faults {level : Bool} (back : read ++ levels = a.frame.levels.take n ++ [level])
    (sent : a.frame.levels[n]? = some (!level))
    (faults : s.line.tx = .sending a ∨ s.line.tx = .offering a ∧ (level = true ∨ a.frame.arbitration ≤ n)) :
    exec (.attemptFault levels) s = .next { s with line := s.line.stopFaulted a (read ++ levels) } := by
  have after : s.line.frameAfter levels = some (read ++ levels) := by simp [LineIf.frameAfter, rx]
  have differs : a.frame.differsAt (read ++ levels) = true := by simp [Frame.differsAt_eq sent back]
  have stops : s.line.tx.faultsAt (read ++ levels) = some a := by
    obtain sending | ⟨offering, keeps⟩ := faults
    · simp [sending, Transmitter.faultsAt, differs]
    · have kept : a.frame.losesAt (read ++ levels) = false := by
        rw [← Bool.not_eq_true, Frame.losesAt_iff sent back]
        rintro ⟨_, field, rfl⟩
        simp only [Bool.false_eq_true, false_or] at keeps
        omega
      simp [offering, Transmitter.faultsAt, differs, kept]
  change execAttemptFault levels s = _
  rw [execAttemptFault, happening_of_enabled (by simp [on])]
  simp only [after, stops]

end Attempts

/-- R66: a lost frame that is no send-queue entry goes back as it is. -/
theorem ownLost_of_plain {s : State} {a : Attempt} (plain : ∀ id k, a.source ≠ .queue id k) :
    s.ownLost a = s.bump .arbitrationLosses := by
  simp only [State.ownLost]
  cases source : a.source with
  | queue id k => exact absurd source (plain id k)
  | _ => rfl

theorem ownLost_of_queue {s : State} {a : Attempt} {id : Nat} {k : EntryKind} (source : a.source = .queue id k) :
    s.ownLost a = (s.bump .arbitrationLosses).entryUnsent id := by
  simp only [State.ownLost, source]

/-! ### The slot of a SNAP, or of own remains (R64) -/

theorem exec_frameOutcome_of_passed {s : State} {others : List Bool} (on : s.power = .on)
    (ends : s.line.awaiting = .snapPart ∨ s.line.awaiting = .ownRemains) (read : (s.line.slotAfter others).length = 3) :
    exec (.frameOutcome others) s = .next (State.deliverFault { s with line := s.line.toQuiet } s.line.faulted) := by
  have awaits : s.line.awaiting ≠ .nothing := by obtain ends | ends := ends <;> simp [ends]
  change execFrameOutcome others s = _
  rw [execFrameOutcome, happening_of_enabled (by simp [on, awaits, read])]
  obtain ends | ends := ends <;> simp only [ends]

/-! ### A FAULT kept during a heard frame (R64) -/

section Kept

variable {s : State} {a : Attempt} {q : List Entry} (empty : s.slots.queue = [])
  (kept : ∀ e ∈ q, e.purged = true ∧ a.source = .queue e.id e.kind)

include empty kept

/-- R140: what a purge keeps of a faulted entry goes with its FAULT. -/
theorem ownUnsent_of_kept : State.ownUnsent { s with slots := { s.slots with queue := q } } a true = s.ownUnsent a true := by
  have unit : ({ s.slots with queue := [] } : SlotUnit) = s.slots := by rw [← empty]
  cases q with
  | nil => rw [unit]
  | cons e rest =>
    obtain ⟨purged, source⟩ := kept e List.mem_cons_self
    have gone : (e :: rest).filter (fun e' => decide (e'.id ≠ e.id)) = [] := by
      refine List.filter_eq_nil_iff.2 fun e' mem => ?_
      have same := source.symm.trans (kept e' mem).2
      simp only [Source.queue.injEq] at same
      simp [same.1]
    have told : State.sourceTold (State.bump { s with slots := { s.slots with queue := e :: rest } } .ownVetoed) a true =
        (s.bump .ownVetoed).sourceTold a true := by
      simp only [State.sourceTold, source]
      rw [entryUnsent_of_purged (e := e) (by simp [State.bump]) purged,
        entryUnsent_of_absent (s := s.bump .ownVetoed) (by simp [State.bump, empty])]
      have unit' : ({ s.slots with queue := (e :: rest).filter fun e' => decide (e'.id ≠ e.id) } : SlotUnit) = s.slots := by
        rw [gone, unit]
      exact congrArg (fun x : SlotUnit => ({ s.bump .ownVetoed with slots := x } : State)) unit'
    rw [ownUnsent_eq, ownUnsent_eq]
    simp only [told]

end Kept

theorem LineIf.veilsFor_faulted {l : LineIf} {fa : Faulted} (faulted : l.faulted = some fa) (m : Awaiting) :
    LineIf.VeilsFor { l with faulted := none, awaiting := m } { l with awaiting := m } fa.attempt := by
  unfold LineIf.VeilsFor LineIf.onLine
  cases l.tx with
  | idle => exact .inr ⟨rfl, by simp [faulted]⟩
  | _ => exact .inl rfl

/-- Settles O31. -/
theorem lostAndFaultedAttempts : Obligations.LostAndFaultedAttempts := by
  refine ⟨fun s others on ends read => ?_, fun s u r v others b8 b9 fa reads faulted without same => ?_,
    fun s a read levels n on rx => ⟨fun offering back sent field => ?_, fun level back sent faults => ⟨fun inside => ?_, fun last => ?_⟩⟩⟩
  · rw [exec_frameOutcome_of_passed on ends read]
    refine ⟨fun none_ => ?_, fun fa faulted => ?_⟩
    · rw [none_]
      rfl
    · rw [faulted]
      exact ⟨_, rfl, returnsFault_ownUnsent _ _⟩
  · obtain ⟨on, awaits, levels⟩ := reads
    have calm := exec_frameOutcome_of_reads (s := { s with line := { s.line with faulted := none } })
      (r := r) (v := v) (others := others) (b8 := b8) (b9 := b9) ⟨on, awaits, levels⟩ rfl
    have fault : exec (.frameOutcome others) s = _ := frameOutcome_of_readsSlot ⟨on, awaits, levels⟩
    rw [calm] at without
    injection without with eq
    have veiled := outcomeHeard_veiled (LineIf.veilsFor_faulted faulted .nothing)
      (s := { s with line := { s.line with faulted := none, awaiting := .nothing } }) r v (b8 && b9)
    have line := State.outcomeHeard_line { s with line := { s.line with faulted := none, awaiting := .nothing } } r v (b8 && b9)
    have shape : u = { State.outcomeHeard { s with line := { s.line with faulted := none, awaiting := .nothing } } r v (b8 && b9)
        with line := s.line.toQuiet } := eq.symm
    generalize State.outcomeHeard { s with line := { s.line with faulted := none, awaiting := .nothing } } r v (b8 && b9) = w
      at veiled shape line
    obtain ⟨x, queues, next⟩ := veiled (by rw [shape] at same; exact same)
    rw [show State.outcomeHeard { s with line := { s.line with awaiting := .nothing } } r v (b8 && b9) = w.relined _ x from next,
      faulted] at fault
    refine ⟨_, fault, ?_⟩
    have again : ({ w.relined { s.line with awaiting := .nothing } x with line := s.line.toQuiet } : State) =
        { u with slots := x } := by rw [shape]; rfl
    change u.returnsFault (State.ownUnsent { w.relined { s.line with awaiting := .nothing } x with line := s.line.toQuiet }
      fa.attempt true) fa.attempt
    rw [again]
    have slots : u.slots = w.slots := by rw [shape]
    rw [← slots] at queues
    obtain rfl | ⟨q, rfl, empty, kept⟩ := queues
    · exact returnsFault_ownUnsent u fa.attempt
    · rw [ownUnsent_of_kept empty kept]
      exact returnsFault_ownUnsent u fa.attempt
  · rw [exec_attemptLost_of_lost on rx offering back sent field]
    refine ⟨fun plain => congrArg Host.Outcome.next (ownLost_of_plain plain), fun id k e source found => ?_⟩
    rw [ownLost_of_queue source]
    have row {v w : State} (unsent : v.entryUnsent id = w) :
        (Host.Outcome.next (v.entryUnsent id) : Host.Outcome State Fault Refusal) = .next w := congrArg _ unsent
    refine ⟨fun purged => row (entryUnsent_of_purged (by exact found) purged), fun live kind => ⟨?_, ?_, ?_⟩, fun live kind => ?_,
      fun live kind => ⟨?_, ?_, ?_⟩⟩
    · exact fun mark => row (entryUnsent_of_unmarked_claim found live kind mark)
    · exact fun mark => row (entryUnsent_of_release_after found live kind mark)
    · exact fun mark => row (entryUnsent_of_cancel_after found live kind mark)
    · exact row (entryUnsent_of_release found live kind)
    · exact fun state mark => row (entryUnsent_of_cancelling found live kind state mark)
    · exact fun state mark => row (entryUnsent_of_marked_withdraw found live kind state mark)
    · exact fun state => row (entryUnsent_of_held found live kind state)
  · have length := Frame.length_of_back sent back
    rw [exec_attemptFault_of_faults on rx back sent faults, LineIf.stopFaulted, if_neg (by omega), length]
  · have length := Frame.length_of_back sent back
    rw [exec_attemptFault_of_faults on rx back sent faults, LineIf.stopFaulted, if_pos (by omega), length]

end Sys2Proof.Machine

/-! # What a taken frame does to every own slot (R147, R151, R154) -/

namespace Sys2Proof.Machine

/-! ### A heard frame's report -/

section Tags

variable {s : State} {me : StationNo} (number : s.mem.number = some me) (f : Frame) (rep : Report)

include number

theorem goneTags_of_heard : s.goneTags f false rep = (rep.removed.filter fun r => decide (r.owner = me)).map Record.tag := by
  refine congrArg (List.map Record.tag) (List.filter_congr fun r _ => ?_)
  rw [Bool.eq_iff_iff, decide_eq_true_eq, ← State.isMe_iff number]
  simp [State.minesRemoved]

theorem grantedTags_of_heard : s.grantedTags f false rep = (rep.grants.filter fun g => decide (g.1 = me)).map Prod.snd := by
  refine congrArg (List.map Prod.snd) (List.filter_congr fun g _ => ?_)
  rw [Bool.eq_iff_iff, decide_eq_true_eq, ← State.isMe_iff number]
  simp [State.minesGrant]

end Tags

/-- R147: what a heard frame that leaves the station state does to slots and events. -/
theorem heardStay_settlesTo {s : State} {f : Frame} {me : StationNo} (number : s.mem.number = some me) (ok : s.table.ok s.cfg) :
    s.settlesTo (s.heardStay f) me f.seq (s.table.apply s.cfg s.roster.isMember f).2.removed
      (s.table.apply s.cfg s.roster.isMember f).2.grants (s.newsOf f ++ s.twinOf f false) := by
  have same := membershipStep_sameButRoster ((s.countsFrom f.sender).afterTable f) f false
  have events := afterMembership_events (s.countsFrom f.sender) f false
  have number' : ((s.countsFrom f.sender).afterMembership f false).1.mem.number = some me := by
    rw [State.afterMembership, same.mem]
    exact number
  have once := State.ownTags_nodup number' f false (ok.apply_namesOnce s.roster.isMember f)
  have rows := settleReport_rows f false once none
  have settled : s.heardStay f = _ := rows
  refine settlesTo_of_rows (goneTags_of_heard number' f _) (grantedTags_of_heard number' f _) same.slots ?_ ?_ ?_ ?_
    (u := ((s.countsFrom f.sender).afterMembership f false).1)
  · rw [State.afterMembership, same.line]
    rfl
  · refine events.trans (State.eventsWith_congr _ ?_)
    rfl
  · rw [settled]
    rfl
  · rw [settled]
    rfl

/-! ### The station state stays (R96, R98, R99, R112) -/

theorem settleSlots_slotRest (s : State) (m : Move) (f : Frame) (own : Bool) (entry : Option Tag) (rep : Report) :
    (s.settleSlots m f own entry rep).slotRest = s.slotRest := by
  cases m with
  | stay => exact settleReport_slotRest ..
  | becomeMember => exact settleReport_slotRest ..
  | _ => exact clearSlots_slotRest ..

theorem applyFrame_mem (s : State) (live own : Bool) (entry : Option Tag) (f : Frame) :
    (s.applyFrame live own entry f).mem = (s.afterMove f own).mem := by
  have slots : (s.afterSlots f own entry).mem = (s.afterMove f own).mem := by
    refine (congrArg SlotRest.mem (settleSlots_slotRest ..)).trans ?_
    unfold State.reload
    split <;> rfl
  rw [applyFrame_eq]
  split
  · exact (lastStep_keeps _ f own _).2.trans slots
  · exact slots

theorem Move.withDissolution_loseMembership {m : Move} {b : Bool} {c : Cause} (h : m.withDissolution b = .loseMembership c) :
    m = .loseMembership c := by
  cases m <;> cases b <;> simp_all [Move.withDissolution]

/-- R96, R112: only a MEMBER has a place to lose. -/
theorem loseMembership_of_moveOf {s : State} {f : Frame} {own : Bool} {c : Cause} (move : s.moveOf f own = .loseMembership c) :
    s.mem.state = .member := by
  have lost {st : StationState} {c' : Cause} (loss : ownLoss st c' = .loseMembership c) : st = .member := by
    cases st <;> simp [ownLoss] at loss ⊢
  rw [moveOf_eq] at move
  have asked := Move.withDissolution_loseMembership move
  unfold State.moveAsked at asked
  cases body : f.body <;> simp only [body, reduceCtorEq] at asked
  case evict target =>
    split at asked
    · split at asked
      · exact lost asked
      · cases asked
    · cases asked
  case leave =>
    split at asked
    · split at asked
      · cases asked
      · split at asked
        · exact lost asked
        · cases asked
    · cases asked
  case join d =>
    split at asked
    · split at asked
      · split at asked <;> cases asked
      · cases asked
    · cases asked

/-- R76: a station that follows the group keeps its state only when the application asks for no move. -/
theorem moveOf_of_state {s : State} {f : Frame} (follows : s.mem.state = .joining ∨ s.mem.state = .member ∨ s.mem.state = .leaving)
    (same : (s.afterMove f false).mem.state = s.mem.state) : s.moveOf f false = .stay := by
  rw [State.afterMove] at same
  cases move : s.moveOf f false with
  | stay => rfl
  | becomeMember => exact absurd move (moveOf_ne_becomeMember s f)
  | loseMembership c =>
    rw [move, loseMembership_of_moveOf move, State.makeMove, enterJoining_eq] at same
    cases same
  | leaveGroup st c =>
    have out := isOut_of_membershipStep (s := s.afterTable f) move
    rw [move] at same
    have st_ : st = s.mem.state := same
    rw [st_] at out
    obtain follows | follows | follows := follows <;> rw [follows] at out <;> cases out
  | dissolve =>
    rw [move] at same
    have listening : StationState.listening = s.mem.state := same
    obtain follows | follows | follows := follows <;> rw [follows] at listening <;> cases listening

/-! ### The events about peers, as the group's rules say them (R91, R95, R110) -/

theorem filter_finRange_eq {n : Nat} (x : Fin n) (p : Fin n → Bool) :
    (List.finRange n).filter (fun y => decide (y = x) && p y) = if p x = true then [x] else [] := by
  have here : (List.finRange n).filter (fun y => decide (y = x)) = [x] := by
    have same : (fun y => decide (y = x)) = fun y => y == x := rfl
    rw [same, List.filter_beq, List.count_eq_one_of_mem (List.nodup_finRange n) (List.mem_finRange x)]
    rfl
  have both : (fun y => decide (y = x) && p y) = fun y => p y && decide (y = x) := funext fun y => Bool.and_comm _ _
  rw [both, ← List.filter_filter, here, List.filter_cons, List.filter_nil]

section News

variable {s : State} {f : Frame} {me : StationNo} (number : s.mem.number = some me)

include number

theorem newsOf_join {d : Half} (body : f.body = .join d) : s.newsOf f =
    if f.sender = me then []
    else if s.roster.digest = some d then
      [peerEvent .peerIn f.sender (some (if s.roster.isMember f.sender then .renewed else .new)) f.seq]
    else [peerEvent .peerRefused f.sender none f.seq] := by
  simp only [State.newsOf, body, State.isMe_iff number]

theorem newsOf_leave (body : f.body = .leave) : s.newsOf f =
    if f.sender ≠ me ∧ s.roster.isMember f.sender = true then [peerEvent .peerOut f.sender (some .left) f.seq] else [] := by
  simp only [State.newsOf, body, State.isMe_iff number]
  by_cases own : f.sender = me <;> simp [own]

omit number in
/-- R110, R111: the evicted station is told of, but for one that leaves its place by it. -/
theorem newsOf_evict {target : Byte} (body : f.body = .evict target) (stay : s.moveOf f false = .stay) : s.newsOf f =
    ((List.finRange 16).filter fun x => decide (x.val = target.toNat ∧ x ≠ f.sender) && s.roster.isMember x).map fun x =>
      peerEvent .peerOut x (some .evicted) f.seq := by
  have asked : s.moveAsked f false = .stay := by
    rw [moveOf_eq] at stay
    generalize (s.afterMembership f false).1.roster.dissolvedBy f = dissolved at stay
    cases is : s.moveAsked f false <;> rw [is] at stay <;> cases dissolved <;> simp_all [Move.withDissolution]
  by_cases near : target.toNat < 16
  · have named (x : StationNo) : (decide (x.val = target.toNat ∧ x ≠ f.sender) && s.roster.isMember x) =
        (decide (x = ⟨target.toNat, near⟩) && (s.roster.isMember x && decide (x ≠ f.sender))) := by
      rw [Bool.eq_iff_iff]
      simp [Fin.ext_iff]
      tauto
    simp only [State.moveAsked, body, dif_pos near] at asked
    simp only [State.newsOf, body, dif_pos near, named]
    rw [filter_finRange_eq]
    by_cases gone : (s.roster.isMember ⟨target.toNat, near⟩ && decide (⟨target.toNat, near⟩ ≠ f.sender)) = true
    · rw [gone, Bool.true_and] at asked
      rw [if_pos gone, if_pos gone, if_neg]
      · rfl
      · rintro loses
        rw [Bool.and_eq_true, decide_eq_true_eq] at loses
        rw [if_pos loses.1] at asked
        exact loses.2 asked
    · rw [if_neg gone, if_neg gone]
      rfl
  · have none_ (x : StationNo) : (decide (x.val = target.toNat ∧ x ≠ f.sender) && s.roster.isMember x) = false := by
      rw [Bool.and_eq_false_iff]
      exact .inl (decide_eq_false fun both => near (by rw [← both.1]; exact x.isLt))
    simp only [State.newsOf, body, dif_neg near, none_]
    simp

theorem twinOf_eq : s.twinOf f false =
    if f.sender = me then [{ kind := .duplicate, seq := some f.seq, cause := some (.kind f.body.kind) }] else [] := by
  unfold State.twinOf State.isForeign
  by_cases own : f.sender = me
  · rw [if_pos (by simp [State.isMe_iff number, own]), if_pos own]
    rfl
  · rw [if_neg (by simp [State.isMe_iff number, own]), if_neg own]

end News

theorem settlesTo_of_same {s t u : State} {me : StationNo} {seq : Seq} {removed : List Record}
    {grants : List (StationNo × Tag)} {others : List Event} (h : s.settlesTo u me seq removed grants others)
    (slots : t.slots = u.slots) (events : t.port.events = u.port.events) : s.settlesTo t me seq removed grants others :=
  ⟨slots.trans h.1, events.trans h.2⟩

/-! ### A frame heard, with a FAULT kept or none (R42, R64) -/

section Heard

variable {s : State} {f : Frame} (kind : f.body.kind ≠ .beat ∧ f.body.kind ≠ .syncreq)

include kind

theorem applyFrame_eq_heardStay (stay : (s.countsFrom f.sender).moveOf f false = .stay) :
    (s.countsFrom f.sender).applyFrame true false none f = s.heardStay f := by
  rw [applyFrame_of_stay stay, if_pos rfl, lastStep_of_tabled _ _ _ _ (.inl kind)]
  rfl

/-- R147: slots and events once the frame has been applied, where the station state has not moved. -/
theorem applyHeard_settlesTo {me : StationNo} (number : s.mem.number = some me) (ok : s.table.ok s.cfg)
    (follows : s.mem.state = .joining ∨ s.mem.state = .member ∨ s.mem.state = .leaving)
    (same : ((s.countsFrom f.sender).applyFrame true false none f).mem.state = s.mem.state) :
    (s.countsFrom f.sender).moveOf f false = .stay ∧
      s.settlesTo ((s.countsFrom f.sender).applyFrame true false none f) me f.seq
        (s.table.apply s.cfg s.roster.isMember f).2.removed (s.table.apply s.cfg s.roster.isMember f).2.grants
        (s.newsOf f ++ s.twinOf f false) := by
  rw [applyFrame_mem] at same
  have stay := moveOf_of_state (s := s.countsFrom f.sender) follows same
  refine ⟨stay, ?_⟩
  rw [applyFrame_eq_heardStay kind stay]
  exact heardStay_settlesTo number ok

end Heard

theorem State.tells_port (s : State) (es : List Event) :
    (s.tells es).port = { s.port with events := (s.tells es).port.events, idleTimer := (s.tells es).port.idleTimer } := by
  induction es generalizing s with
  | nil => rfl
  | cons e es ih =>
    rw [State.tells_cons, ih]
    have first : (s.emit e).port = { s.port with events := (s.emit e).port.events, idleTimer := (s.emit e).port.idleTimer } := by
      simp only [State.emit, Port.append]
      repeat' split
      all_goals rfl
    rw [first]

theorem settled_heardFrom (s : State) (x : SlotUnit) (es : List Event) (n : StationNo) :
    (s.settled x es).heardFrom n = { s.settled x es with pres := (s.heardFrom n).pres } := by
  by_cases listens : (s.roster.isMember n && !s.isMe n && decide (s.pres.absence[n] ≠ .stopped)) = true
  · have before : s.heardFrom n = _ := if_pos listens
    have after : (s.settled x es).heardFrom n = _ := if_pos listens
    rw [before, after]
    rfl
  · have before : s.heardFrom n = _ := if_neg listens
    have after : (s.settled x es).heardFrom n = _ := if_neg listens
    rw [before, after]
    rfl

/-- R64, R147: a FAULT kept changes slots and events of the application alone. -/
theorem heardStay_of_fault {s s' : State} {l : LineIf} (relined : s = s'.relined l s'.slots) (f : Frame) :
    let t := (s.heardStay f).heardFrom f.sender
    let w := (s'.heardStay f).heardFrom f.sender
    t = { w with
      line := t.line, slots := t.slots
      port := { w.port with events := t.port.events, idleTimer := t.port.idleTimer } } := by
  have counted : s.countsFrom f.sender = (s'.countsFrom f.sender).relined { l with awaiting := .nothing } s'.slots := by
    rw [relined]
    rfl
  have table : (s.countsFrom f.sender).afterTable f =
      ((s'.countsFrom f.sender).afterTable f).relined { l with awaiting := .nothing } s'.slots := by
    rw [counted]
    rfl
  have member : ((s.countsFrom f.sender).afterMembership f false).1 =
      (((s'.countsFrom f.sender).afterMembership f false).1).relined { l with awaiting := .nothing } s'.slots := by
    rw [State.afterMembership, table, relined_membershipStep]
    rfl
  obtain ⟨x, es, settled⟩ : ((s.countsFrom f.sender).afterMembership f false).1.SettlesFrom (s.heardStay f) :=
    State.SettlesFrom.settleReport _ f none _
  obtain ⟨x', es', settled'⟩ : ((s'.countsFrom f.sender).afterMembership f false).1.SettlesFrom (s'.heardStay f) :=
    State.SettlesFrom.settleReport _ f none _
  rw [settled, settled', member, settled_heardFrom, settled_heardFrom, relined_heardFrom]
  generalize ((s'.countsFrom f.sender).afterMembership f false).1 = m
  have port : (m.tells es).port = { (m.tells es').port with
      events := (m.tells es).port.events, idleTimer := (m.tells es).port.idleTimer } := by
    rw [m.tells_port es']
    exact m.tells_port es
  intro t w
  change t = { w with
    line := t.line, slots := t.slots
    port := { (m.tells es').port with events := (m.tells es).port.events, idleTimer := (m.tells es).port.idleTimer } }
  rw [← port]
  rfl

/-- R147, R151, R154: the heard frame's clause of O42. -/
theorem heardFrameSettles {s : State} {f : Frame} {others : List Bool} {me : StationNo}
    (reads : s.readsSlot (.good f) .accept others true true) (inStep : s.order.step = .inStep)
    (number : s.mem.number = some me)
    (follows : s.mem.state = .joining ∨ s.mem.state = .member ∨ s.mem.state = .leaving) (ok : s.table.ok s.cfg)
    (kind : f.body.kind ≠ .beat ∧ f.body.kind ≠ .syncreq) :
    let settled (t : State) : Prop := s.settlesTo t me f.seq (s.table.apply s.cfg s.roster.isMember f).2.removed
      (s.table.apply s.cfg s.roster.isMember f).2.grants (s.newsOf f ++ s.twinOf f false)
    (s.line.faulted = none → ∃ t, exec (.frameOutcome others) s = .next t ∧
      (t.mem.state = s.mem.state → (s.countsFrom f.sender).moveOf f false = .stay ∧ settled t)) ∧
    (∀ fa w, s.line.faulted = some fa →
      exec (.frameOutcome others) { s with line := { s.line with faulted := none } } = .next w →
      w.mem.state = s.mem.state → (s.countsFrom f.sender).moveOf f false = .stay ∧ ∃ u t, exec (.frameOutcome others) s = .next t ∧
        u = { w with slots := u.slots, port := { w.port with events := u.port.events, idleTimer := u.port.idleTimer } } ∧
        settled u ∧ u.returnsFault t fa.attempt) := by
  intro settled
  have settles {t : State} (h : settled (s.heardStay f)) (slots : t.slots = ((s.heardStay f).heardFrom f.sender).slots)
      (events : t.port.events = ((s.heardStay f).heardFrom f.sender).port.events) : settled t := by
    rw [State.heardFrom_eq] at slots events
    exact settlesTo_of_same h slots events
  refine ⟨fun calm => ?_, fun fa w faulted without same => ?_⟩
  · have next := exec_frameOutcome_of_taken reads calm
    rw [taken_of_accept (by exact inStep)] at next
    refine ⟨_, next, fun same => ?_⟩
    have mem := congrArg (·.mem.state) (((s.countsFrom f.sender).applyFrame true false none f).heardFrom_eq f.sender)
    obtain ⟨stay, h⟩ := applyHeard_settlesTo kind number ok follows (mem.symm.trans same)
    rw [applyFrame_eq_heardStay kind stay] at h ⊢
    exact ⟨stay, settles h rfl rfl⟩
  · generalize calmed : ({ s with line := { s.line with faulted := none } } : State) = s' at without
    have reads' : s'.readsSlot (.good f) .accept others true true := by rw [← calmed]; exact reads
    have next := exec_frameOutcome_of_taken reads' (by rw [← calmed])
    rw [taken_of_accept (by rw [← calmed]; exact inStep)] at next
    have eq := Host.Outcome.next.inj (without.symm.trans next)
    have relined : s = s'.relined s.line s'.slots := by rw [← calmed]; rfl
    have mem := congrArg (·.mem.state) (((s'.countsFrom f.sender).applyFrame true false none f).heardFrom_eq f.sender)
    have state : s'.mem = s.mem := by rw [← calmed]
    rw [eq] at same
    have kept := mem.symm.trans same
    rw [applyFrame_mem] at kept
    have stay' := moveOf_of_state (s := s'.countsFrom f.sender) (by rw [← state] at follows; exact follows)
      (by rw [kept, ← state]; rfl)
    have stay : (s.countsFrom f.sender).moveOf f false = .stay := by
      rw [← stay']
      have counted : s.countsFrom f.sender =
          (s'.countsFrom f.sender).relined { s.line with awaiting := .nothing } s'.slots := by
        conv_lhs => rw [relined]
        rfl
      rw [counted]
      exact (relined_afterMove _ _ _ f false).2
    rw [applyFrame_eq_heardStay kind stay'] at eq
    have fault : exec (.frameOutcome others) s = _ := frameOutcome_of_readsSlot reads
    rw [faulted] at fault
    have applied : State.outcomeHeard { s with line := { s.line with awaiting := .nothing } } (.good f) .accept (true && true) =
        (s.heardStay f).heardFrom f.sender := by
      rw [← applyFrame_eq_heardStay kind stay, ← taken_of_accept (s := s.countsFrom f.sender) (by exact inStep)]
      rfl
    have frame := heardStay_of_fault relined f
    have h := heardStay_settlesTo (f := f) number ok
    dsimp only at fault
    rw [applied] at fault
    refine ⟨stay, { (s.heardStay f).heardFrom f.sender with line := s.line.toQuiet }, _, fault, ?_, settles h rfl rfl, ?_⟩
    · rw [eq]
      dsimp only at frame ⊢
      generalize (s.heardStay f).heardFrom f.sender = t at frame ⊢
      have quiet : s'.line.toQuiet = s.line.toQuiet := by rw [← calmed]; rfl
      rw [frame, quiet]
    · have line : ((s.heardStay f).heardFrom f.sender).line.toQuiet = s.line.toQuiet := by
        have group := (settleReport_groupRest _ f false none ((s.countsFrom f.sender).reportOf f)).trans
          (membershipStep_groupRest ((s.countsFrom f.sender).afterTable f) f false)
        have line : (s.heardStay f).line = (s.countsFrom f.sender).line := congrArg GroupRest.line group
        have same := congrArg (·.line) ((s.heardStay f).heardFrom_eq f.sender)
        rw [same.trans line]
        rfl
      rw [line]
      exact returnsFault_ownUnsent _ _

end Sys2Proof.Machine

/-! # The own CLAIM, RELEASE and WITHDRAW taken (R148, R149, R152, R153) -/

namespace Sys2Proof.Machine

/-! ### Grants of other slots leave a slot alone -/

theorem foldl_ownGrant_slot (seq : Seq) (ts : List Tag) (s : State) {k : Tag} (other : k ∉ ts) :
    (ts.foldl (fun u t => u.ownGrant t seq) s).slots.slots[k] = s.slots.slots[k] := by
  induction ts generalizing s with
  | nil => rfl
  | cons t ts ih =>
    have apart : k ≠ t := fun same => other (by rw [same]; exact List.mem_cons_self)
    rw [List.foldl_cons, ih _ fun mem => other (List.mem_cons_of_mem _ mem), ownGrant_eq]
    exact (s.slots.takes_slot t k _).trans (if_neg apart)

/-- R11, R19, R20: a RELEASE or WITHDRAW grants nothing to the tag that it names. -/
theorem apply_grants_other {t : Table} {cfg : Cfg} {isMember : StationNo → Bool} {f : Frame} {tag : Byte}
    (body : f.body = .release tag ∨ f.body = .withdraw tag) {g : StationNo × Tag} (mem : g ∈ (t.apply cfg isMember f).2.grants) :
    ¬ (g.1 = f.sender ∧ g.2.val = tag.toNat) := by
  have removed (cap : Nat) (out : Option TagOutcome)
      (mem : g ∈ (t.removeAndEvaluate cap f.seq (fun r => r.isOf f.sender tag.toNat) out).2.grants) :
      ¬ (g.1 = f.sender ∧ g.2.val = tag.toNat) := by
    obtain ⟨_, same⟩ | ⟨_, evaluated⟩ := t.removeAndEvaluate_cases cap f.seq (fun r => r.isOf f.sender tag.toNat) out
    · rw [same] at mem
      cases mem
    · rw [evaluated] at mem
      obtain ⟨r, kept, rfl⟩ := List.mem_map.1 ((Table.evaluate_grants _ _ _).subset mem)
      have out := (List.mem_filter.1 kept).2
      rintro ⟨owner, named⟩
      simp [Record.isOf, show r.owner = f.sender from owner, show r.tag.val = tag.toNat from named] at out
  obtain body | body := body
  · simp only [Table.apply, body] at mem
    exact removed _ _ mem
  · simp only [Table.apply, body] at mem
    split at mem
    · cases mem
    · split at mem
      · cases mem
      · exact removed _ _ mem

/-! ### The state before the slots take the report -/

section Entry

variable (s : State) (src : Source) (f : Frame)

/-- R45, R65, R66, R102: the own frame has been counted and applied, up to the slots. -/
def State.ownApplied : State :=
  (((State.countsTaken { s with line := s.line.toQuiet } src).afterMembership f true).1).reload true

variable {s src f}

theorem reload_frame (u : State) (own : Bool) : u.reload own = { u with pres := (u.reload own).pres } := by
  unfold State.reload
  split <;> rfl

theorem leaveSource_frame (u : State) (src : Source) :
    u.leaveSource src = { u with mem := (u.leaveSource src).mem, slots := (u.leaveSource src).slots, pres := (u.leaveSource src).pres } := by
  cases src <;> rfl

/-- What an own frame that asks for no move has done before the slots. -/
structure State.OwnApplied (s : State) (id : Nat) (f : Frame) (u : State) : Prop where
  line : u.line = s.line.toQuiet
  cfg : u.cfg = s.cfg
  mem : u.mem = s.mem
  table : u.table = (s.table.apply s.cfg s.roster.isMember f).1
  order : u.order = { s.order with expected := f.seq + 1, lastHeard := some f.seq, ownRun := 0 }
  slots : u.slots = s.slots.drop id
  events : u.port.events = s.port.events
  counters : u.port.counters = (s.bump .framesTaken).port.counters

theorem ownApplied_of_queue {id : Nat} {k : EntryKind}
    (plain : f.body.kind ≠ .join ∧ f.body.kind ≠ .leave ∧ f.body.kind ≠ .evict) :
    s.OwnApplied id f (s.ownApplied (.queue id k) f) := by
  have same := membershipStep_sameButRoster ((State.countsTaken { s with line := s.line.toQuiet } (.queue id k)).afterTable f) f true
  have events := afterMembership_events (State.countsTaken { s with line := s.line.toQuiet } (.queue id k)) f true
  have counters := afterMembership_counters (State.countsTaken { s with line := s.line.toQuiet } (.queue id k)) f true
  obtain ⟨_, _, _, news, fresh⟩ := afterMembership_of_plain (State.countsTaken { s with line := s.line.toQuiet } (.queue id k)) f true plain
  have native : (State.countsTaken { s with line := s.line.toQuiet } (.queue id k)).twinOf f true = [] := by
    simp [State.twinOf, State.isForeign]
  rw [fresh] at counters
  rw [news, native] at events
  unfold State.ownApplied
  rw [reload_frame]
  exact {
    line := same.line, cfg := same.cfg, mem := same.mem, table := same.table, order := same.order, slots := same.slots
    events := events, counters := counters }

/-- R45, R66: a sequenced own frame of the send queue. -/
theorem exec_ownFrameOutcome_of_entry {a : Attempt} {levels : List Bool} {e : Entry} {k : EntryKind} {me : StationNo}
    (whole : s.completes a levels true true) (inStep : s.order.step = .inStep) (member : s.roster.isMember me = true)
    (source : a.source = .queue e.id k) (found : s.slots.queue.find? (fun q => q.id = e.id) = some e)
    (live : e.purged = false)
    (kind : a.frame.body.kind = .claim ∨ a.frame.body.kind = .release ∨ a.frame.body.kind = .withdraw) :
    s.OwnApplied e.id a.frame (s.ownApplied (.queue e.id k) a.frame) ∧
      exec (.ownFrameOutcome levels) s = .next ((s.ownApplied (.queue e.id k) a.frame).settleReport a.frame true (some e.tag)
        (s.table.apply s.cfg s.roster.isMember a.frame).2) := by
  have plain : a.frame.body.kind ≠ .join ∧ a.frame.body.kind ≠ .leave ∧ a.frame.body.kind ≠ .evict := by
    obtain kind | kind | kind := kind <;> simp [kind]
  have tabled : a.frame.body.kind ≠ .beat ∧ a.frame.body.kind ≠ .syncreq := by
    obtain kind | kind | kind := kind <;> simp [kind]
  have sequenced : a.frame.body.kind ≠ .snap := by obtain kind | kind | kind := kind <;> simp [kind]
  refine ⟨ownApplied_of_queue plain, ?_⟩
  have entry : State.entryTaken { s with line := s.line.toQuiet } a.source = some e.tag := by
    simp [State.entryTaken, source, SlotUnit.liveEntry, found, live]
  have stay := moveOf_of_plain (s := State.countsTaken { s with line := s.line.toQuiet } (.queue e.id k)) (f := a.frame)
    (own := true) plain member (.inl tabled.2)
  rw [exec_ownFrameOutcome_of_taken whole sequenced, ownTaken_of_inStep (by exact inStep), entry, source,
    applyFrame_of_stay stay, if_pos rfl, lastStep_of_tabled _ _ _ _ (.inl tabled)]
  rfl

end Entry

/-! ### The slot of the own entry, and the others (R147) -/

section Settle

variable {s u : State} {id : Nat} {f : Frame} (h : s.OwnApplied id f u) {me : StationNo} (number : s.mem.number = some me)
  (sender : f.sender = me) {tag : Tag} {slots : SlotUnit} {es : List Event}

/-- R147: the own RELEASE or WITHDRAW has its outcome, and the report's other grants have none here. -/
theorem settleReport_of_entry {t : State} {rep : Report} (gone : t.goneTags f true rep = []) (entry : Option Tag) :
    t.settleReport f true entry rep =
      (t.grantedTags f true rep).foldl (fun u t => u.ownGrant t f.seq) (t.settleOwn f rep entry) := by
  rw [settleReport_eq, gone]
  rfl

theorem goneTags_of_tagged (t : State) (rep : Report) (kind : f.body.kind = .release ∨ f.body.kind = .withdraw) :
    t.goneTags f true rep = [] := by
  have none_ : rep.removed.filter (t.minesRemoved f true) = [] :=
    List.filter_eq_nil_iff.2 fun r _ => by simp [State.minesRemoved, kind]
  rw [State.goneTags, none_]
  rfl

include number in
theorem grantedTags_of_tagged {t : State} (same : t.mem = s.mem) (rep : Report)
    (kind : f.body.kind = .release ∨ f.body.kind = .withdraw) :
    t.grantedTags f true rep = (rep.grants.filter fun g => decide (g.1 = me)).map Prod.snd := by
  refine congrArg (List.map Prod.snd) (List.filter_congr fun g _ => ?_)
  rw [Bool.eq_iff_iff, decide_eq_true_eq, ← State.isMe_iff (s := t) (by rw [same]; exact number)]
  cases body : f.body <;> simp [body, Body.kind] at kind <;> simp [State.minesGrant, body]

/-- R152, R153: the slot `y` after the entry's own outcome, with these events, where no RELEASE is queued. -/
def State.EntryEnds (s t : State) (id : Nat) (tag : Tag) (me : StationNo) (seq : Seq) (grants : List (StationNo × Tag))
    (y : Slot) (es : List Event) : Prop :=
  t.slots.slots[tag] = y ∧ (s.table.ok s.cfg → State.settlesTo
    { s with
      line := s.line.afterOutcome
      slots := { s.slots with
        slots := s.slots.slots.set tag y, queue := s.slots.queue.filter fun q => decide (q.id ≠ id) } }
    t me seq [] grants es)

include h number sender in
theorem entryEnds_of_settled {y : Slot} (body : f.body = .release (byteOf tag.val) ∨ f.body = .withdraw (byteOf tag.val))
    (settled : u.settleOwn f (s.table.apply s.cfg s.roster.isMember f).2 (some tag) = u.settled (u.slots.setSlot tag y) es) :
    s.EntryEnds (u.settleReport f true (some tag) (s.table.apply s.cfg s.roster.isMember f).2) id tag me f.seq
      (s.table.apply s.cfg s.roster.isMember f).2.grants y es := by
  have kind : f.body.kind = .release ∨ f.body.kind = .withdraw := body.imp (fun b => by rw [b]; rfl) (fun b => by rw [b]; rfl)
  have gone := goneTags_of_tagged u (s.table.apply s.cfg s.roster.isMember f).2 kind
  have granted := grantedTags_of_tagged number h.mem (s.table.apply s.cfg s.roster.isMember f).2 kind
  have other : tag ∉ u.grantedTags f true (s.table.apply s.cfg s.roster.isMember f).2 := by
    rw [granted]
    intro mem
    obtain ⟨g, listed, tagged⟩ := List.mem_map.1 mem
    obtain ⟨given, mine⟩ := List.mem_filter.1 listed
    refine apply_grants_other body given ⟨?_, ?_⟩
    · rw [sender]
      exact of_decide_eq_true mine
    · rw [tagged]
      simp [byteOf]
      omega
  constructor
  · rw [settleReport_of_entry gone, foldl_ownGrant_slot _ _ _ other, settled]
    exact Vector.getElem_set_self _
  · intro ok
    have once := State.ownTags_nodup (s := u) (by rw [h.mem]; exact number) f true (ok.apply_namesOnce s.roster.isMember f)
    have rows := settleReport_rows f true once (some tag)
    simp only [if_true] at rows
    rw [settled, gone] at rows
    have unit : u.slots.setSlot tag y = { s.slots with
        slots := s.slots.slots.set tag y, queue := s.slots.queue.filter fun q => decide (q.id ≠ id) } := by rw [h.slots]; rfl
    refine settlesTo_of_rows (u := u.settled (u.slots.setSlot tag y) es) (gone := []) rfl granted unit ?_ ?_ ?_ ?_
    · exact congrArg LineIf.onLine h.line
    · exact State.eventsWith_congr _ h.events
    · rw [rows]
      rfl
    · rw [rows]
      rfl

include h number in
/-- R153: the WITHDRAW of a HELD record grants nothing; a RELEASE is queued for the slot. -/
theorem entryReleases_of_settled {y : Slot} {tag' : Byte} (body : f.body = .withdraw tag')
    (still : (s.table.apply s.cfg s.roster.isMember f).2.grants = [])
    (settled : u.settleOwn f (s.table.apply s.cfg s.roster.isMember f).2 (some tag) =
      u.settled ((u.slots.setSlot tag y).push .release tag) es) :
    let t := u.settleReport f true (some tag) (s.table.apply s.cfg s.roster.isMember f).2
    t.port.events = s.eventsWith es ∧ t.slots = { s.slots with
      slots := s.slots.slots.set tag y
      queue := (s.slots.queue.filter fun q => decide (q.id ≠ id)) ++
        [{ id := s.slots.nextId, kind := .release, tag := tag, purged := false }]
      nextId := s.slots.nextId + 1 } := by
  have kind : f.body.kind = .release ∨ f.body.kind = .withdraw := .inr (by rw [body]; rfl)
  have gone := goneTags_of_tagged u (s.table.apply s.cfg s.roster.isMember f).2 kind
  have granted := grantedTags_of_tagged number h.mem (s.table.apply s.cfg s.roster.isMember f).2 kind
  rw [still] at granted
  intro t
  have shape : t = u.settled ((u.slots.setSlot tag y).push .release tag) es := by
    change u.settleReport f true (some tag) _ = _
    rw [settleReport_of_entry gone, granted, settled]
    rfl
  rw [shape]
  refine ⟨State.eventsWith_congr _ h.events, ?_⟩
  change (u.slots.setSlot tag y).push .release tag = _
  rw [h.slots]
  rfl

end Settle

/-! ### The outcomes of the own RELEASE and WITHDRAW (R152, R153) -/

section Outcomes

variable {u : State} {f : Frame} {rep : Report} {tag : Tag} {x : Slot} (slot : u.slots.slots[tag] = x)

theorem Slot.freedCause_eq (x : Slot) : x.freedCause =
    (match x.cause with
      | some .hold => .hold
      | some .line => .line
      | some .surrender => .surrender
      | some .host | none => .host) := by
  unfold Slot.freedCause
  cases cause : x.cause with
  | none => rfl
  | some c => cases c <;> rfl

include slot

theorem settleOwn_of_release {b : Byte} (body : f.body = .release b) : u.settleOwn f rep (some tag) =
    u.settled (u.slots.setSlot tag Slot.empty) [slotNote tag .freed (some x.freedCause) (some f.seq)] := by
  rw [← slot]
  simp only [State.settleOwn, body]
  rfl

variable {b : Byte} (body : f.body = .withdraw b)

include body

theorem settleOwn_of_cancelled (out : rep.tag = some .removed ∨ rep.tag = some .absent) (state : x.state = .cancelling)
    (mark : x.mark ≠ .releaseAfter) : u.settleOwn f rep (some tag) =
      u.settled (u.slots.setSlot tag Slot.empty) [slotNote tag .withdrawn (some .host) (some f.seq)] := by
  subst slot
  have state : (u.slot tag).state = .cancelling := state
  have mark : (u.slot tag).mark ≠ .releaseAfter := mark
  obtain out | out := out <;> simp only [State.settleOwn, body, out, Option.getD_some, State.ownWithdrawTaken, state, mark,
    if_false] <;> rfl

theorem settleOwn_of_marked (out : rep.tag = some .removed ∨ rep.tag = some .absent)
    (state : x.state = .cancelling ∨ x.state = .releasing) (mark : x.mark = .releaseAfter) : u.settleOwn f rep (some tag) =
      u.settled (u.slots.setSlot tag Slot.empty) [slotNote tag .freed (some x.freedCause) (some f.seq)] := by
  subst slot
  have mark : (u.slot tag).mark = .releaseAfter := mark
  obtain state | state := state
  · have state : (u.slot tag).state = .cancelling := state
    obtain out | out := out <;> simp only [State.settleOwn, body, out, Option.getD_some, State.ownWithdrawTaken, state, mark,
      if_true] <;> rfl
  · have state : (u.slot tag).state = .releasing := state
    obtain out | out := out <;> simp only [State.settleOwn, body, out, Option.getD_some, State.ownWithdrawTaken, state] <;> rfl

theorem settleOwn_of_held_gone (out : rep.tag = some .removed ∨ rep.tag = some .absent) (state : x.state = .held) :
    u.settleOwn f rep (some tag) =
      u.settled (u.slots.setSlot tag Slot.empty) [slotNote tag .withdrawn (some .gone) (some f.seq)] := by
  subst slot
  have state : (u.slot tag).state = .held := state
  obtain out | out := out <;> simp only [State.settleOwn, body, out, Option.getD_some, State.ownWithdrawTaken, state] <;> rfl

variable {r : Record} (still : rep.tag = some .stillHeld) (found : u.table.find f.sender tag.val = some r)

include still found

theorem settleOwn_of_overtaken (state : x.state = .cancelling) (mark : x.mark ≠ .releaseAfter) :
    u.settleOwn f rep (some tag) = u.settled (u.slots.setSlot tag (x.heldSince r.grantedAt))
      [slotNote tag .granted none r.grantedAt, slotNote tag .tooLate none (some f.seq)] := by
  subst slot
  have state : (u.slot tag).state = .cancelling := state
  have mark : (u.slot tag).mark ≠ .releaseAfter := mark
  rw [← Slot.toHeld_eq]
  simp only [State.settleOwn, body, still, Option.getD_some, State.ownWithdrawTaken, state, mark, if_false, found,
    Option.bind_some]
  rfl

theorem settleOwn_of_overtaken_marked (state : x.state = .cancelling) (mark : x.mark = .releaseAfter) :
    u.settleOwn f rep (some tag) = u.settled ((u.slots.setSlot tag { x with
        state := .releasing, grantedAt := r.grantedAt, mark := .none, holdTimer := .stopped }).push .release tag)
      [slotNote tag .granted none r.grantedAt, slotNote tag .tooLate none (some f.seq)] := by
  subst slot
  have state : (u.slot tag).state = .cancelling := state
  have mark : (u.slot tag).mark = .releaseAfter := mark
  simp only [State.settleOwn, body, still, Option.getD_some, State.ownWithdrawTaken, state, mark, if_true, found,
    Option.bind_some]
  rfl

omit found in
theorem settleOwn_of_overtaken_releasing (state : x.state = .releasing) :
    u.settleOwn f rep (some tag) = u.settled ((u.slots.setSlot tag { x with
        state := .releasing, grantedAt := x.grantedAt, mark := .none, holdTimer := .stopped }).push .release tag)
      [slotNote tag .tooLate none (some f.seq)] := by
  subst slot
  have state : (u.slot tag).state = .releasing := state
  simp only [State.settleOwn, body, still, Option.getD_some, State.ownWithdrawTaken, state]
  rfl

omit found in
theorem settleOwn_of_overtaken_held (state : x.state = .held) :
    u.settleOwn f rep (some tag) = u.settled (u.slots.setSlot tag { x with mark := .none })
      [slotNote tag .tooLate none (some f.seq)] := by
  subst slot
  have state : (u.slot tag).state = .held := state
  simp only [State.settleOwn, body, still, Option.getD_some, State.ownWithdrawTaken, state]
  rw [← state]
  rfl

end Outcomes

end Sys2Proof.Machine

/-! # The slots after every frame taken (R147 to R155) -/

namespace Sys2Proof.Machine

/-! ### A LEAVE, JOIN or EVICT at the table and the roster -/

theorem byteOf_toNat (x : StationNo) : (byteOf x.val).toNat = x.val := by
  simp [byteOf]
  omega

theorem removed_owner {t : Table} {cap : Nat} {seq : Seq} {x : StationNo} {tag : Option TagOutcome} {r : Record}
    (mem : r ∈ (t.removeAndEvaluate cap seq (fun r => decide (r.owner = x)) tag).2.removed) : r.owner = x := by
  obtain ⟨_, same⟩ | ⟨_, removed⟩ := t.removeAndEvaluate_cases cap seq (fun r => decide (r.owner = x)) tag
  · rw [same] at mem
    cases mem
  · rw [removed] at mem
    exact of_decide_eq_true (List.mem_filter.1 mem).2

section Evict

variable {s : State} {f : Frame} {x : StationNo} (body : f.body = .evict (byteOf x.val)) (member : s.roster.isMember x = true)
  (other : x ≠ f.sender)

include body member other

theorem apply_of_evict : s.table.apply s.cfg s.roster.isMember f =
    s.table.removeAndEvaluate s.cfg.poolCapacity f.seq (fun r => decide (r.owner = x)) none := by
  have near : (byteOf x.val).toNat < 16 := by rw [byteOf_toNat]; exact x.isLt
  have named : (⟨(byteOf x.val).toNat, near⟩ : StationNo) = x := Fin.ext (byteOf_toNat x)
  simp only [Table.apply, body, dif_pos near, named, member, Bool.true_and, decide_eq_true_eq, other, ne_eq, not_false_eq_true,
    if_true]

/-- R110, R111: roster, timers and move of an EVICT of a member. -/
theorem afterMembership_of_evict (own : Bool) :
    (s.afterMembership f own).1.roster = (s.roster.recordTaken f.sender f.seq).removeMember x ∧
      (s.afterMembership f own).1.pres = s.pres.stopAbsence x ∧
      s.moveAsked f own = (if s.isMe x then ownLoss s.mem.state .evicted else .stay) ∧
      s.newsOf f = (if s.isMe x && decide (ownLoss s.mem.state .evicted ≠ .stay) then []
        else [peerEvent .peerOut x (some .evicted) f.seq]) ∧ s.stale f = false := by
  have near : (byteOf x.val).toNat < 16 := by rw [byteOf_toNat]; exact x.isLt
  have named : (⟨(byteOf x.val).toNat, near⟩ : StationNo) = x := Fin.ext (byteOf_toNat x)
  have recorded : (s.roster.recordTaken f.sender f.seq).isMember x = true := by rw [Roster.isMember_recordTaken, member]
  have applied : ((s.afterTable f).kindApplied f own).1.roster = (s.roster.recordTaken f.sender f.seq).removeMember x ∧
      ((s.afterTable f).kindApplied f own).1.pres = s.pres.stopAbsence x := by
    have listed : (State.roster { s.afterTable f with roster := (s.afterTable f).roster.recordTaken f.sender f.seq }).isMember x
        = true := recorded
    unfold State.kindApplied State.applyKind
    simp only [body, State.applyEvict, dif_pos near, named]
    rw [if_pos (by rw [listed]; simpa using other)]
    split
    · cases ownLoss (s.afterTable f).mem.state .evicted <;> exact ⟨rfl, rfl⟩
    · exact ⟨rfl, rfl⟩
  rw [afterMembership_roster, afterMembership_pres]
  refine ⟨applied.1, applied.2, ?_, ?_, ?_⟩
  · simp only [State.moveAsked, body, dif_pos near, named, member, other, ne_eq, not_false_eq_true, decide_true, Bool.true_and]
  · simp only [State.newsOf, body, dif_pos near, named, member, other, ne_eq, not_false_eq_true, decide_true, Bool.true_and,
      if_true]
  · simp [State.stale, body, near, named, member, other]

end Evict

/-! ### The own EVICT taken -/

section OwnEvict

variable {s : State} {a : Attempt} {levels : List Bool} {me x other : StationNo} (whole : s.completes a levels true true)
  (inStep : s.order.step = .inStep) (number : s.mem.number = some me) (source : a.source = .evict x)
  (sender : a.frame.sender = me) (body : a.frame.body = .evict (byteOf x.val)) (peer : x ≠ me)
  (member : s.roster.isMember x = true) (remains : s.roster.isMember other = true) (apart : other ≠ x)

include whole inStep number source sender body peer member remains apart

theorem ownEvictSettles (ok : s.table.ok s.cfg) :
    ∃ t, exec (.ownFrameOutcome levels) s = .next t ∧ t.mem = s.mem ∧
      State.settlesTo { s with line := s.line.afterOutcome } t me a.frame.seq []
        (s.table.apply s.cfg s.roster.isMember a.frame).2.grants
        [{ kind := .peerOut, station := some x, cause := some (.cause .evicted), seq := some a.frame.seq }] := by
  have notMe : s.isMe x = false := by
    rw [Bool.eq_false_iff, ne_eq, State.isMe_iff number]
    exact peer
  have evicts := afterMembership_of_evict (s := State.countsTaken { s with line := s.line.toQuiet } (.evict x)) body member
    (by rw [sender]; exact peer) true
  have same := membershipStep_sameButRoster
    ((State.countsTaken { s with line := s.line.toQuiet } (.evict x)).afterTable a.frame) a.frame true
  have events := afterMembership_events (State.countsTaken { s with line := s.line.toQuiet } (.evict x)) a.frame true
  generalize counts : State.countsTaken { s with line := s.line.toQuiet } (.evict x) = c at evicts same events
  have frame : c.mem = s.mem ∧ c.table = s.table ∧ c.cfg = s.cfg ∧ c.roster = s.roster ∧ c.slots = s.slots ∧
      c.line = s.line.toQuiet ∧ c.port.events = s.port.events ∧ c.isMe x = s.isMe x := by
    rw [← counts]
    exact ⟨rfl, rfl, rfl, rfl, rfl, rfl, rfl, rfl⟩
  obtain ⟨mem, table, cfg, roster, slots, line, told, isMe⟩ := frame
  obtain ⟨after, _, asked, news, _⟩ := evicts
  rw [isMe, notMe] at asked news
  have stay : c.moveOf a.frame true = .stay := by
    rw [moveOf_eq, asked, after, Roster.dissolvedBy_of_member (n := other) _ (.inl (by simp [body, Body.kind]))]
    · rfl
    · rw [Roster.isMember_removeMember, Roster.isMember_recordTaken, roster, remains]
      simpa using apart
  have next := exec_ownFrameOutcome_of_taken whole (by simp [body, Body.kind])
  have entry : State.entryTaken { s with line := s.line.toQuiet } a.source = none := by rw [source]; rfl
  rw [ownTaken_of_inStep (by exact inStep), entry, source, counts, applyFrame_of_stay stay, if_pos rfl,
    lastStep_of_tabled _ _ _ _ (.inl (by simp [body, Body.kind]))] at next
  have report : c.reportOf a.frame = (s.table.apply s.cfg s.roster.isMember a.frame).2 := by
    rw [State.reportOf, table, cfg, roster]
  rw [report] at next
  have native : c.twinOf a.frame true = [] := by simp [State.twinOf, State.isForeign]
  rw [news, native] at events
  have fields : (((c.afterMembership a.frame true).1).reload true).mem = s.mem ∧
      (((c.afterMembership a.frame true).1).reload true).slots = s.slots ∧
      (((c.afterMembership a.frame true).1).reload true).line = s.line.toQuiet ∧
      (((c.afterMembership a.frame true).1).reload true).port.events =
        s.eventsWith [peerEvent .peerOut x (some .evicted) a.frame.seq] := by
    rw [reload_frame]
    exact ⟨same.mem.trans mem, same.slots.trans slots, same.line.trans line, events.trans (State.eventsWith_congr _ told)⟩
  generalize ((c.afterMembership a.frame true).1).reload true = p at next fields
  obtain ⟨mem', slots', line', events'⟩ := fields
  have number' : p.mem.number = some me := by rw [mem']; exact number
  have once := State.ownTags_nodup number' a.frame true (ok.apply_namesOnce s.roster.isMember a.frame)
  have gone : p.goneTags a.frame true (s.table.apply s.cfg s.roster.isMember a.frame).2 = [] := by
    refine List.map_eq_nil_iff.2 (List.filter_eq_nil_iff.2 fun r mem => ?_)
    rw [apply_of_evict body member (by rw [sender]; exact peer)] at mem
    rw [State.minesRemoved, removed_owner mem, State.isMe, mem']
    exact fun mine => by rw [← State.isMe, notMe] at mine; cases mine
  have granted : p.grantedTags a.frame true (s.table.apply s.cfg s.roster.isMember a.frame).2 =
      ((s.table.apply s.cfg s.roster.isMember a.frame).2.grants.filter fun g => decide (g.1 = me)).map Prod.snd := by
    refine congrArg (List.map Prod.snd) (List.filter_congr fun g _ => ?_)
    rw [Bool.eq_iff_iff, decide_eq_true_eq, ← State.isMe_iff number']
    simp [State.minesGrant, body]
  have rows := settleReport_rows a.frame true once none
  simp only [if_true] at rows
  rw [gone, show p.settleOwn a.frame (s.table.apply s.cfg s.roster.isMember a.frame).2 none = p from rfl] at rows
  refine ⟨_, next, ?_, ?_⟩
  · rw [rows]
    exact mem'
  · refine settlesTo_of_rows (u := p) (gone := []) rfl granted slots' (congrArg LineIf.onLine line') events' ?_ ?_
    · rw [rows]
      rfl
    · rw [rows]
      rfl

end OwnEvict

/-! ### The own RELEASE and WITHDRAW taken -/

theorem byteOf_tag (t : Tag) : (byteOf t.val).toNat = t.val := by
  simp [byteOf]
  omega

/-- R20: the WITHDRAW of a HELD record leaves the table as it is. -/
theorem apply_of_stillHeld {t : Table} {cfg : Cfg} {isMember : StationNo → Bool} {f : Frame} {tag : Byte}
    (body : f.body = .withdraw tag) (still : (t.apply cfg isMember f).2.tag = some .stillHeld) :
    (t.apply cfg isMember f).1 = t ∧ (t.apply cfg isMember f).2.grants = [] ∧
      ∃ r, t.find f.sender tag.toNat = some r := by
  simp only [Table.apply, body] at still ⊢
  cases found : t.find f.sender tag.toNat with
  | none =>
    rw [found] at still
    cases still
  | some r =>
    rw [found] at still
    cases state : r.state with
    | held => refine ⟨?_, ?_, r, rfl⟩ <;> simp only [state]
    | waiting =>
      simp only [state] at still
      obtain ⟨_, same⟩ | ⟨_, removed⟩ :=
        t.removeAndEvaluate_cases cfg.poolCapacity f.seq (fun r => r.isOf f.sender tag.toNat) (some .removed)
      · rw [same] at still
        cases still
      · rw [removed] at still
        cases still

/-- Settles O42. -/
theorem ownReleaseWithdrawAndGrantSettleTheSlot : Obligations.OwnReleaseWithdrawAndGrantSettleTheSlot := by
  refine ⟨fun s a levels me e k whole inStep number member source found live sender => ?_,
    fun s a levels me x other whole inStep _ number source sender body peer member remains apart ok =>
      ownEvictSettles whole inStep number source sender body peer member remains apart ok,
    fun s f others me reads inStep number follows ok kind => ?_⟩
  · intro report x seq left note told stored ends releases
    have slotOf {u : State} (h : s.OwnApplied e.id a.frame u) : u.slots.slots[e.tag] = x := by rw [h.slots]; rfl
    have keeps {u : State} (h : s.OwnApplied e.id a.frame u) :
        (u.settleReport a.frame true (some e.tag) report).table = (s.table.apply s.cfg s.roster.isMember a.frame).1 ∧
          (u.settleReport a.frame true (some e.tag) report).order.expected = seq + 1 ∧
          (u.settleReport a.frame true (some e.tag) report).mem = s.mem := by
      have same := settleReport_slotRest u a.frame true (some e.tag) report
      exact ⟨(congrArg SlotRest.table same).trans h.table,
        (congrArg (fun r : SlotRest => r.order.expected) same).trans (congrArg Order.expected h.order),
        (congrArg SlotRest.mem same).trans h.mem⟩
    have cause : x.freedCause = stored := Slot.freedCause_eq x
    refine ⟨fun body => ?_, fun body => ?_⟩
    · obtain ⟨h, next⟩ := exec_ownFrameOutcome_of_entry whole inStep member source found live (.inr (.inl (by rw [body]; rfl)))
      obtain ⟨table, expected, mem⟩ := keeps h
      refine ⟨_, next, table, expected, mem, ?_⟩
      rw [← cause]
      exact entryEnds_of_settled h number sender (.inl body) (settleOwn_of_release (slotOf h) body)
    · obtain ⟨h, next⟩ := exec_ownFrameOutcome_of_entry whole inStep member source found live (.inr (.inr (by rw [body]; rfl)))
      obtain ⟨table, expected, mem⟩ := keeps h
      have done {y : Slot} {es : List Event} := entryEnds_of_settled (y := y) (es := es) h number sender (.inr body)
      refine ⟨_, next, table, expected, mem, fun out => ⟨fun state mark => ?_, fun state mark => ?_, fun state => ?_⟩, fun still => ?_⟩
      · exact done (settleOwn_of_cancelled (slotOf h) body out state (by rw [mark]; exact nofun))
      · rw [← cause]
        exact done (settleOwn_of_marked (slotOf h) body out state mark)
      · exact done (settleOwn_of_held_gone (slotOf h) body out state)
      · obtain ⟨same, grants, r, named⟩ := apply_of_stillHeld body still
        rw [byteOf_tag, sender] at named
        have found' : (s.ownApplied (.queue e.id k) a.frame).table.find a.frame.sender e.tag.val = some r := by
          rw [h.table, same, sender]
          exact named
        have queued {y : Slot} {es : List Event} := entryReleases_of_settled (y := y) (es := es) (tag := e.tag) h number body grants
        refine ⟨table.trans same, r, named, fun state mark => ?_, fun state mark => ?_, fun state mark => ?_, fun state => ?_⟩
        · exact done (settleOwn_of_overtaken (slotOf h) body still found' state (by rw [mark]; exact nofun))
        · exact queued (settleOwn_of_overtaken_marked (slotOf h) body still found' state mark)
        · exact queued (settleOwn_of_overtaken_releasing (slotOf h) body still state)
        · exact done (settleOwn_of_overtaken_held (slotOf h) body still state)
  · have tabled : f.body.kind ≠ .beat ∧ f.body.kind ≠ .syncreq := by
      obtain kind | kind | kind | kind | kind | kind := kind <;> simp [kind]
    obtain ⟨calm, fault⟩ := heardFrameSettles reads inStep number follows ok tabled
    intro report peer is news twin settled
    have told : (s.countsFrom f.sender).moveOf f false = .stay → s.newsOf f ++ s.twinOf f false = news ++ twin := by
      intro stay
      rw [twinOf_eq number]
      congr 1
      cases body : f.body with
      | join d =>
        rw [newsOf_join number body]
        simp only [news, body]
        rfl
      | leave =>
        rw [newsOf_leave number body]
        simp only [news, body]
        rfl
      | evict target =>
        have evicts := newsOf_evict (s := s.countsFrom f.sender) body stay
        simp only [news, body]
        exact evicts
      | _ =>
        simp only [news, body]
        simp only [State.newsOf, body]
    refine ⟨fun none_ => ?_, fun fa w faulted without same => ?_⟩
    · obtain ⟨t, next, settles⟩ := calm none_
      refine ⟨t, next, fun same => ?_⟩
      obtain ⟨stay, h⟩ := settles same
      rw [told stay] at h
      exact h
    · obtain ⟨stay, u, t, next, frame, h, returns⟩ := fault fa w faulted without same
      rw [told stay] at h
      exact ⟨u, t, next, frame, h, returns⟩

end Sys2Proof.Machine

/-! # The own CLAIM taken (R148, R149) -/

namespace Sys2Proof.Machine

/-- R186: settling counts nothing. -/
theorem settleOwn_counters (s : State) (f : Frame) (rep : Report) (entry : Option Tag) :
    (s.settleOwn f rep entry).port.counters = s.port.counters := by
  unfold State.settleOwn
  split
  · rfl
  · split
    · unfold State.ownClaimTaken
      dsimp only
      repeat' split
      all_goals simp [State.emit, State.freeWith, State.setSlot, State.push, Port.append_counters]
    · simp [State.ownReleaseTaken, State.emit, State.freeWith, State.setSlot, Port.append_counters]
    · unfold State.ownWithdrawTaken
      dsimp only
      repeat' split
      all_goals simp [State.emit, State.freeWith, State.setSlot, State.push, Port.append_counters]
    · rfl

theorem settleReport_counters (s : State) (f : Frame) (own : Bool) (entry : Option Tag) (rep : Report) :
    (s.settleReport f own entry rep).port.counters = s.port.counters := by
  rw [settleReport_eq]
  refine ((State.SettlesFrom.foldl (fun u t => .ownRemoved u t f.seq) _ _).trans
    (State.SettlesFrom.foldl (fun u t => .ownGrant u t f.seq) _ _)).counters.trans ?_
  split
  · exact settleOwn_counters s f rep entry
  · rfl

section ClaimOutcomes

variable {u : State} {f : Frame} {rep : Report} {tag : Tag} {x : Slot} (slot : u.slots.slots[tag] = x)
  {b lo hi : Byte} {zp : Bool} {units : Half} (body : f.body = .claim b zp lo hi units)

/-- R17: the report grants the record of this station's tag. -/
def State.grantsOwn (u : State) (rep : Report) (tag : Tag) : Bool := rep.grants.any fun g => u.isMe g.1 && decide (g.2 = tag)

include body in
theorem settleOwn_of_claim : u.settleOwn f rep (some tag) =
    u.ownClaimTaken tag (rep.claim.getD .ignored) (u.grantsOwn rep tag) f.seq := by
  simp only [State.settleOwn, body]
  rfl

include slot body

theorem settleOwn_of_admitted (out : rep.claim = some .admitted) (left : u.grantsOwn rep tag = false) (mark : x.mark = .none) :
    u.settleOwn f rep (some tag) = u.settled
      (u.slots.setSlot tag { x with state := .waiting, admittedAt := some f.seq }) [slotNote tag .admitted none (some f.seq)] := by
  subst slot
  have mark : (u.slot tag).mark = .none := mark
  rw [settleOwn_of_claim body, out, left]
  simp only [Option.getD_some, State.ownClaimTaken, mark]
  rw [← mark]
  rfl

theorem settleOwn_of_admitted_release (out : rep.claim = some .admitted) (left : u.grantsOwn rep tag = false)
    (mark : x.mark = .releaseAfter) : u.settleOwn f rep (some tag) = u.settled
      ((u.slots.setSlot tag { x with
        state := .releasing, admittedAt := some f.seq, grantedAt := x.grantedAt, mark := .none
        holdTimer := .stopped }).push .release tag) [slotNote tag .admitted none (some f.seq)] := by
  subst slot
  have mark : (u.slot tag).mark = .releaseAfter := mark
  rw [settleOwn_of_claim body, out, left]
  simp only [Option.getD_some, State.ownClaimTaken, mark]
  rfl

theorem settleOwn_of_admitted_cancel (out : rep.claim = some .admitted) (left : u.grantsOwn rep tag = false)
    (mark : x.mark = .cancelAfter) : u.settleOwn f rep (some tag) = u.settled
      ((u.slots.setSlot tag { x with state := .cancelling, admittedAt := some f.seq, mark := .none }).push .withdraw tag)
      [slotNote tag .admitted none (some f.seq)] := by
  subst slot
  have mark : (u.slot tag).mark = .cancelAfter := mark
  rw [settleOwn_of_claim body, out, left]
  simp only [Option.getD_some, State.ownClaimTaken, mark]
  rfl

theorem settleOwn_of_granted (out : rep.claim = some .admitted) (granted : u.grantsOwn rep tag = true) (mark : x.mark = .none) :
    u.settleOwn f rep (some tag) = u.settled
      (u.slots.setSlot tag (Slot.heldSince { x with admittedAt := some f.seq } (some f.seq)))
      [slotNote tag .admitted none (some f.seq), slotNote tag .granted none (some f.seq)] := by
  subst slot
  have mark : (u.slot tag).mark = .none := mark
  rw [settleOwn_of_claim body, out, granted, ← Slot.toHeld_eq]
  simp only [Option.getD_some, State.ownClaimTaken, mark]
  rw [← mark]
  rfl

theorem settleOwn_of_granted_release (out : rep.claim = some .admitted) (granted : u.grantsOwn rep tag = true)
    (mark : x.mark = .releaseAfter) : u.settleOwn f rep (some tag) = u.settled
      ((u.slots.setSlot tag { x with
        state := .releasing, admittedAt := some f.seq, grantedAt := some f.seq, mark := .none
        holdTimer := .stopped }).push .release tag)
      [slotNote tag .admitted none (some f.seq), slotNote tag .granted none (some f.seq)] := by
  subst slot
  have mark : (u.slot tag).mark = .releaseAfter := mark
  rw [settleOwn_of_claim body, out, granted]
  simp only [Option.getD_some, State.ownClaimTaken, mark]
  rfl

theorem settleOwn_of_granted_cancel (out : rep.claim = some .admitted) (granted : u.grantsOwn rep tag = true)
    (mark : x.mark = .cancelAfter) : u.settleOwn f rep (some tag) = u.settled
      (u.slots.setSlot tag (Slot.heldSince { x with admittedAt := some f.seq } (some f.seq)))
      [slotNote tag .admitted none (some f.seq), slotNote tag .granted none (some f.seq),
        slotNote tag .tooLate none (some f.seq)] := by
  subst slot
  have mark : (u.slot tag).mark = .cancelAfter := mark
  rw [settleOwn_of_claim body, out, granted, ← Slot.toHeld_eq]
  simp only [Option.getD_some, State.ownClaimTaken, mark]
  rw [← mark]
  rfl

omit slot in
theorem settleOwn_of_refused {r : RefuseReason} (out : rep.claim = some (.refused r)) : u.settleOwn f rep (some tag) =
    u.settled (u.slots.setSlot tag Slot.empty) [slotNote tag .refused (some r.toCause) (some f.seq)] := by
  rw [settleOwn_of_claim body, out]
  rfl

end ClaimOutcomes

/-! ### The other grants (R147) -/

section Claim

variable {s u : State} {id : Nat} {f : Frame} (h : s.OwnApplied id f u) {me : StationNo} (number : s.mem.number = some me)
  {tag : Tag} {lo hi : Byte} {zp : Bool} {units : Half} (body : f.body = .claim (byteOf tag.val) zp lo hi units)
  {slots : SlotUnit} {es : List Event}

include body in
theorem claim_removes_nothing : (s.table.apply s.cfg s.roster.isMember f).2.removed = [] := by
  simp only [Table.apply, body]
  unfold Table.applyClaim
  split <;> rfl

include h number body

theorem grantedTags_of_claim (k : Tag) : k ∈ u.grantedTags f true (s.table.apply s.cfg s.roster.isMember f).2 ↔
    (me, k) ∈ (s.table.apply s.cfg s.roster.isMember f).2.grants ∧ k ≠ tag := by
  have number' : u.mem.number = some me := by rw [h.mem]; exact number
  simp only [State.grantedTags, List.mem_map, List.mem_filter, State.minesGrant, body, Bool.and_eq_true,
    State.isMe_iff number', Bool.true_and, Bool.not_eq_true', decide_eq_false_iff_not, byteOf_tag]
  constructor
  · rintro ⟨g, ⟨mem, mine, other⟩, rfl⟩
    exact ⟨by rw [← mine]; exact mem, fun same => other (by rw [same])⟩
  · rintro ⟨mem, other⟩
    exact ⟨(me, k), ⟨mem, rfl, fun same => other (Fin.ext same.symm)⟩, rfl⟩

omit body in
theorem grantsOwn_iff : u.grantsOwn (s.table.apply s.cfg s.roster.isMember f).2 tag = true ↔
    (me, tag) ∈ (s.table.apply s.cfg s.roster.isMember f).2.grants := by
  have number' : u.mem.number = some me := by rw [h.mem]; exact number
  simp only [State.grantsOwn, List.any_eq_true, Bool.and_eq_true, State.isMe_iff number', decide_eq_true_eq]
  constructor
  · rintro ⟨g, mem, mine, here⟩
    rwa [← mine, ← here]
  · exact fun mem => ⟨_, mem, rfl, rfl⟩

/-- R147: the slot of the entry, and the slots and events where no other own claim is granted. -/
theorem claimSettles {y : Slot}
    (settled : u.settleOwn f (s.table.apply s.cfg s.roster.isMember f).2 (some tag) = u.settled slots es)
    (slot : slots.slots[tag] = y) :
    let t := u.settleReport f true (some tag) (s.table.apply s.cfg s.roster.isMember f).2
    t.slots.slots[tag] = y ∧
      ((∀ g ∈ (s.table.apply s.cfg s.roster.isMember f).2.grants, g.1 = me → g.2 = tag) →
        t.port.events = s.eventsWith es ∧ t.slots = slots) := by
  have gone : u.goneTags f true (s.table.apply s.cfg s.roster.isMember f).2 = [] := by
    rw [State.goneTags, claim_removes_nothing body]
    rfl
  have granted := grantedTags_of_claim h number body
  intro t
  have shape : t = (u.grantedTags f true (s.table.apply s.cfg s.roster.isMember f).2).foldl
      (fun u t => u.ownGrant t f.seq) (u.settled slots es) := by
    rw [← settled, ← settleReport_of_entry gone]
  refine ⟨?_, fun only => ?_⟩
  · rw [shape, foldl_ownGrant_slot _ _ _ fun mem => ((granted tag).1 mem).2 rfl]
    exact slot
  · have none_ : u.grantedTags f true (s.table.apply s.cfg s.roster.isMember f).2 = [] :=
      List.eq_nil_iff_forall_not_mem.2 fun k mem => ((granted k).1 mem).2 (only _ ((granted k).1 mem).1 rfl)
    rw [shape, none_]
    exact ⟨State.eventsWith_congr _ h.events, rfl⟩

end Claim

/-- Settles O38. -/
theorem ownClaimTakenSettlesItsSlot : Obligations.OwnClaimTakenSettlesItsSlot := by
  intro s a levels me e zp lo hi units whole inStep _ number member source found live sender body _ report granted x seq hold
    held releasing left onlyThis note told ends queues
  obtain ⟨h, next⟩ := exec_ownFrameOutcome_of_entry whole inStep member source found live (.inl (by rw [body]; rfl))
  have slot : (s.ownApplied (.queue e.id .claim) a.frame).slots.slots[e.tag] = x := by rw [h.slots]; rfl
  have same := settleReport_slotRest (s.ownApplied (.queue e.id .claim) a.frame) a.frame true (some e.tag) report
  have counters : ((s.ownApplied (.queue e.id .claim) a.frame).settleReport a.frame true (some e.tag) report).port.counters =
      (s.bump .framesTaken).port.counters := (settleReport_counters ..).trans h.counters
  have ended {y : Slot} {es : List Event}
      (settled : (s.ownApplied (.queue e.id .claim) a.frame).settleOwn a.frame report (some e.tag) =
        (s.ownApplied (.queue e.id .claim) a.frame).settled ((s.ownApplied (.queue e.id .claim) a.frame).slots.setSlot e.tag y) es) :
      ends ((s.ownApplied (.queue e.id .claim) a.frame).settleReport a.frame true (some e.tag) report) y es := by
    obtain ⟨at_, rest⟩ := claimSettles h number body settled (y := y) (Vector.getElem_set_self _)
    refine ⟨at_, fun only => ?_⟩
    obtain ⟨events, slots⟩ := rest only
    exact ⟨events, slots.trans (by rw [h.slots]; rfl)⟩
  have queued {y : Slot} {k : EntryKind} {es : List Event}
      (settled : (s.ownApplied (.queue e.id .claim) a.frame).settleOwn a.frame report (some e.tag) =
        (s.ownApplied (.queue e.id .claim) a.frame).settled
          (((s.ownApplied (.queue e.id .claim) a.frame).slots.setSlot e.tag y).push k e.tag) es) :
      queues ((s.ownApplied (.queue e.id .claim) a.frame).settleReport a.frame true (some e.tag) report) y k es := by
    obtain ⟨at_, rest⟩ := claimSettles h number body settled (y := y) (Vector.getElem_set_self _)
    refine ⟨at_, fun only => ?_⟩
    obtain ⟨events, slots⟩ := rest only
    exact ⟨events, slots.trans (by rw [h.slots]; rfl)⟩
  have isGranted := grantsOwn_iff (tag := e.tag) h number
  refine ⟨_, next, (congrArg SlotRest.table same).trans h.table,
    (congrArg (fun r : SlotRest => r.order.expected) same).trans (congrArg Order.expected h.order),
    (congrArg (fun r : SlotRest => r.order.lastHeard) same).trans (congrArg Order.lastHeard h.order),
    (congrArg (fun r : SlotRest => r.order.ownRun) same).trans (congrArg Order.ownRun h.order),
    (congrArg SlotRest.mem same).trans h.mem, ?_, fun out waits => ?_, fun out grants => ?_, fun out => ?_, fun out => ?_, fun out => ?_⟩
  · rw [counters]
    exact State.bump_self s .framesTaken
  · have left : (s.ownApplied (.queue e.id .claim) a.frame).grantsOwn report e.tag = false :=
      Bool.eq_false_iff.2 (mt isGranted.1 waits)
    exact ⟨fun mark => ended (settleOwn_of_admitted slot body out left mark),
      fun mark => queued (settleOwn_of_admitted_release slot body out left mark),
      fun mark => queued (settleOwn_of_admitted_cancel slot body out left mark)⟩
  · have given := isGranted.2 grants
    exact ⟨fun mark => ended (settleOwn_of_granted slot body out given mark),
      fun mark => queued (settleOwn_of_granted_release slot body out given mark),
      fun mark => ended (settleOwn_of_granted_cancel slot body out given mark)⟩
  · exact ended (settleOwn_of_refused body out)
  · exact ended (settleOwn_of_refused body out)
  · exact ended (settleOwn_of_refused body out)

end Sys2Proof.Machine

/-! # An application that moves the station (R76, R77, R95 to R99, R112, R160) -/

namespace Sys2Proof.Machine

/-! ### The three moves out of place -/

theorem Port.eventsWith_after {s u : State} {es : List Event} (told : u.port.events = s.eventsWith es) (later : List Event) :
    u.eventsWith later = s.eventsWith (es ++ later) := by
  rw [State.eventsWith_append]
  exact State.eventsWith_congr _ told

theorem slotEnds_congr {s u : State} (slots : u.slots = s.slots) (k : EventKind) (c : Cause) (q : Option Seq) :
    u.slotEnds k c q = s.slotEnds k c q := by
  simp only [State.slotEnds, slots]

/-- R98: the group dissolves at the station, with its slots. -/
def State.dissolves (s : State) (q : Option Seq) : State := (s.enterListening .dissolved q).clearSlots .lost .dissolved q

/-- R96: a MEMBER loses its place, with its slots. -/
def State.losesPlace (s : State) (c : Cause) (q : Option Seq) : State :=
  (State.enterJoining { s with cu := s.cu.dropServes } true c q).clearSlots .lost c q

section Moves

variable (s : State) (c : Cause) (q : Option Seq)

theorem State.dissolves_frame :
    s.dissolves q =
      { s with
        mem := { s.mem with
          state := .listening, listen := .running s.cfg.absenceTime
          pendingFound := false, pendingJoin := false, pendingLeave := false }
        order := { s.order.toOff with lastHeard := none }
        table := Table.empty, roster := Roster.empty, pres := Presence.stopped, cu := CatchUp.idle
        slots := (s.dissolves q).slots, port := (s.dissolves q).port } := by
  unfold State.dissolves
  rw [State.clearSlots_eq]
  rfl

theorem State.dissolves_outOfGroup : (s.dissolves q).outOfGroup := by
  have frame := s.dissolves_frame q
  exact ⟨congrArg (·.order.step) frame, congrArg (·.order.expected) frame, congrArg (·.table) frame,
    congrArg (·.roster) frame, congrArg (·.pres) frame, congrArg (·.cu) frame,
    congrArg (·.mem.pendingFound) frame, congrArg (·.mem.pendingJoin) frame, congrArg (·.mem.pendingLeave) frame,
    State.clearSlots_slot _ _ _ _, State.clearSlots_purged _ _ _ _⟩

theorem State.dissolves_events : (s.dissolves q).port.events =
    s.eventsWith (stateEvent .listening .dissolved q :: s.slotEnds .lost .dissolved q) := State.clearSlots_events ..

theorem State.dissolves_counters : (s.dissolves q).port.counters = s.port.counters :=
  (State.clearSlots_counters ..).trans (Port.append_counters ..)

theorem State.losesPlace_frame :
    s.losesPlace c q =
      { s with
        mem := { s.mem with
          state := .joining, listen := .stopped, pendingFound := false, pendingJoin := true, pendingLeave := false }
        pres := s.pres.quiesce s.cfg.absenceTime, cu := s.cu.dropServes
        slots := (s.losesPlace c q).slots, port := (s.losesPlace c q).port } := by
  unfold State.losesPlace
  rw [State.clearSlots_eq, enterJoining_eq]
  rfl

theorem State.losesPlace_slot (t : Tag) : (s.losesPlace c q).slots.slots[t] = Slot.empty := State.clearSlots_slot ..

theorem State.losesPlace_events (member : s.mem.state = .member) : (s.losesPlace c q).port.events =
    s.eventsWith (stateEvent .joining c q :: s.slotEnds .lost c q) := by
  refine (State.clearSlots_events ..).trans ?_
  rw [slotEnds_congr (s := s) (by rw [enterJoining_eq]), ← State.eventsWith_emit]
  apply State.eventsWith_congr
  rw [State.enterJoining, if_neg (by simp [member])]
  rfl

theorem State.losesPlace_counters : (s.losesPlace c q).port.counters = s.port.counters := by
  refine (State.clearSlots_counters ..).trans ?_
  unfold State.enterJoining
  dsimp only
  split
  · rfl
  · exact Port.append_counters ..

end Moves

section Applied

variable {c : State} {f : Frame} {own : Bool} (live : Bool) (entry : Option Tag)

theorem reload_of_stopped {u : State} (stopped : u.pres = Presence.stopped) (own : Bool) : u.reload own = u := by
  cases own with
  | false => rfl
  | true =>
    have same : u.pres.ownFrameTaken u.cfg.beatInterval = u.pres := by rw [stopped]; rfl
    simp only [State.reload, same, ite_self]

theorem applyFrame_of_leaveGroup {st : StationState} {ca : Cause} (move : c.moveOf f own = .leaveGroup st ca)
    (kind : f.body.kind ≠ .beat ∧ f.body.kind ≠ .syncreq) :
    c.applyFrame live own entry f = ((c.afterMembership f own).1).putOut st ca ca (some f.seq) (some f.seq)
      (if st = .detached ∧ ca = .left then .freed else .lost) := by
  have slots : c.afterSlots f own entry = ((c.afterMembership f own).1).putOut st ca ca (some f.seq) (some f.seq)
      (if st = .detached ∧ ca = .left then .freed else .lost) := by
    rw [State.afterSlots, State.afterMove, move, reload_of_stopped (by rfl)]
    rfl
  rw [applyFrame_eq, slots, lastStep_of_tabled _ _ _ _ (.inl kind), ite_self]

theorem applyFrame_of_dissolve (move : c.moveOf f own = .dissolve) (kind : f.body.kind ≠ .beat) :
    c.applyFrame live own entry f = ((c.afterMembership f own).1).dissolves (some f.seq) := by
  have slots : c.afterSlots f own entry = ((c.afterMembership f own).1).dissolves (some f.seq) := by
    rw [State.afterSlots, State.afterMove, move, reload_of_stopped (by rfl)]
    rfl
  have last : (((c.afterMembership f own).1).dissolves (some f.seq)).lastStep f own c.fingerprint =
      ((c.afterMembership f own).1).dissolves (some f.seq) := by
    by_cases request : f.body.kind = .syncreq
    · have empty : (((c.afterMembership f own).1).dissolves (some f.seq)).roster = Roster.empty :=
        congrArg (·.roster) (State.dissolves_frame _ _)
      have unserved : Roster.empty.server f.sender = none := by
        rw [Roster.server, List.find?_eq_none]
        intro n _
        simp
      unfold State.lastStep
      cases body : f.body with
      | syncreq => simp only [State.designate, empty, unserved]
      | _ => simp [body, Body.kind] at request
    · exact lastStep_of_tabled _ _ _ _ (.inl ⟨kind, request⟩)
  rw [applyFrame_eq, slots, last, ite_self]

theorem applyFrame_of_lose {ca : Cause} (move : c.moveOf f false = .loseMembership ca)
    (kind : f.body.kind ≠ .beat ∧ f.body.kind ≠ .syncreq) :
    c.applyFrame live false entry f = ((c.afterMembership f false).1).losesPlace ca (some f.seq) := by
  have slots : c.afterSlots f false entry = ((c.afterMembership f false).1).losesPlace ca (some f.seq) := by
    rw [State.afterSlots, State.afterMove, move]
    rfl
  rw [applyFrame_eq, slots, lastStep_of_tabled _ _ _ _ (.inl kind), ite_self]

end Applied

/-! ### A heard frame that moves the station -/

section Heard

variable {s : State} {f : Frame} {others : List Bool} (reads : s.readsSlot (.good f) .accept others true true)
  (calm : s.line.faulted = none) (inStep : s.order.step = .inStep)

/-- R91, R95, R99, R110: what the membership step of a heard frame tells. -/
theorem heard_told (s : State) (f : Frame) (later : List Event) :
    ((s.countsFrom f.sender).afterMembership f false).1.eventsWith later =
      s.eventsWith (s.newsOf f ++ s.twinOf f false ++ later) := by
  refine Port.eventsWith_after ((afterMembership_events _ _ _).trans ?_) later
  apply State.eventsWith_congr
  rfl

theorem heard_slots (s : State) (f : Frame) : ((s.countsFrom f.sender).afterMembership f false).1.slots = s.slots :=
  (membershipStep_sameButRoster ((s.countsFrom f.sender).afterTable f) f false).slots

theorem heard_told_ends (s : State) (f : Frame) (e : Event) (k : EventKind) (c : Cause) (q : Option Seq) :
    ((s.countsFrom f.sender).afterMembership f false).1.eventsWith
        (e :: ((s.countsFrom f.sender).afterMembership f false).1.slotEnds k c q) =
      s.eventsWith (s.newsOf f ++ s.twinOf f false ++ e :: s.slotEnds k c q) := by
  rw [heard_told, slotEnds_congr (heard_slots s f)]

theorem heard_mem (s : State) (f : Frame) : ((s.countsFrom f.sender).afterMembership f false).1.mem = s.mem :=
  (membershipStep_sameButRoster ((s.countsFrom f.sender).afterTable f) f false).mem

/-- R186: the frame counted for its sender, and the stale EVICT. -/
theorem heard_counter (s : State) (f : Frame) :
    ((s.countsFrom f.sender).afterMembership f false).1.port.counters[(Counter.takenFrom f.sender).index] =
      satInc s.port.counters[(Counter.takenFrom f.sender).index] := by
  rw [← s.countsFrom_counters f.sender, afterMembership_counters]
  split
  · exact State.bump_other _ .staleEvictions (Counter.fixed_ne_takenFrom (by decide) f.sender).symm
  · rfl

include reads calm inStep

theorem exec_frameOutcome_of_applied {t : State} (applied : (s.countsFrom f.sender).applyFrame true false none f = t)
    (empty : t.roster = Roster.empty) : exec (.frameOutcome others) s = .next { t with line := s.line.toQuiet } := by
  rw [exec_frameOutcome_of_taken reads calm, taken_of_accept (by exact inStep), applied,
    State.heardFrom_of_not_member (by rw [empty]; exact Roster.empty_isMember _)]

theorem heard_leaveGroup {st : StationState} {ca : Cause}
    (move : (s.countsFrom f.sender).moveOf f false = .leaveGroup st ca) (other : ca ≠ .left)
    (kind : f.body.kind ≠ .beat ∧ f.body.kind ≠ .syncreq) :
    ∃ t, exec (.frameOutcome others) s = .next t ∧ t.mem.state = st ∧ t.mem.listen = .stopped ∧ t.outOfGroup ∧
      t.port.events = s.eventsWith
        (s.newsOf f ++ s.twinOf f false ++ stateEvent st ca (some f.seq) :: s.slotEnds .lost ca (some f.seq)) := by
  have applied := applyFrame_of_leaveGroup true none move kind
  rw [if_neg fun both => other both.2] at applied
  have told := heard_told_ends s f (stateEvent st ca (some f.seq)) .lost ca (some f.seq)
  generalize ((s.countsFrom f.sender).afterMembership f false).1 = m at *
  have frame := m.putOut_frame st ca ca (some f.seq) (some f.seq) .lost
  have out := m.putOut_outOfGroup st ca ca (some f.seq) (some f.seq) .lost
  have events := m.putOut_events st ca ca (some f.seq) (some f.seq) .lost
  generalize m.putOut st ca ca (some f.seq) (some f.seq) .lost = t at *
  have next := exec_frameOutcome_of_applied reads calm inStep applied (congrArg (·.roster) frame)
  exact ⟨_, next, congrArg (·.mem.state) frame, congrArg (·.mem.listen) frame, State.outOfGroup_withLine out _,
    events.trans told⟩

theorem heard_dissolve (move : (s.countsFrom f.sender).moveOf f false = .dissolve) (kind : f.body.kind ≠ .beat) :
    ∃ t, exec (.frameOutcome others) s = .next t ∧ t.mem.state = .listening ∧
      t.mem.listen = .running (s.cfg.absenceLimit * s.cfg.beatInterval) ∧ t.outOfGroup ∧ t.order.lastHeard = none ∧
      t.port.events = s.eventsWith (s.newsOf f ++ s.twinOf f false ++
        stateEvent .listening .dissolved (some f.seq) :: s.slotEnds .lost .dissolved (some f.seq)) := by
  have applied := applyFrame_of_dissolve true none move kind
  have told := heard_told_ends s f (stateEvent .listening .dissolved (some f.seq)) .lost .dissolved (some f.seq)
  have cfg : ((s.countsFrom f.sender).afterMembership f false).1.cfg = s.cfg :=
    (membershipStep_sameButRoster ((s.countsFrom f.sender).afterTable f) f false).cfg
  generalize ((s.countsFrom f.sender).afterMembership f false).1 = m at *
  have frame := m.dissolves_frame (some f.seq)
  have out := m.dissolves_outOfGroup (some f.seq)
  have events := m.dissolves_events (some f.seq)
  generalize m.dissolves (some f.seq) = t at *
  have next := exec_frameOutcome_of_applied reads calm inStep applied (congrArg (·.roster) frame)
  refine ⟨_, next, congrArg (·.mem.state) frame, (congrArg (·.mem.listen) frame).trans ?_, State.outOfGroup_withLine out _,
    congrArg (·.order.lastHeard) frame, events.trans told⟩
  dsimp only
  rw [cfg]
  rfl

/-- R96, R112: a MEMBER loses its place by the frame. -/
theorem heard_lose {ca : Cause} (move : (s.countsFrom f.sender).moveOf f false = .loseMembership ca)
    (kind : f.body.kind ≠ .beat ∧ f.body.kind ≠ .syncreq) :
    ∃ t, exec (.frameOutcome others) s = .next t ∧
      t.order = { s.order with expected := f.seq + 1, lastHeard := some f.seq } ∧
      t.mem.state = .joining ∧ t.mem.pendingJoin = true ∧
      t.table = (s.table.apply s.cfg s.roster.isMember f).1 ∧
      t.roster = ((s.countsFrom f.sender).afterMembership f false).1.roster ∧
      t.pres.beat = .stopped ∧ t.pres.beatPending = false ∧ t.cu = s.cu.dropServes ∧
      (∀ k : Tag, t.slots.slots[k] = Slot.empty) ∧
      t.port.counters[(Counter.takenFrom f.sender).index] = satInc s.port.counters[(Counter.takenFrom f.sender).index] ∧
      t.port.events = s.eventsWith
        (s.newsOf f ++ s.twinOf f false ++ stateEvent .joining ca (some f.seq) :: s.slotEnds .lost ca (some f.seq)) := by
  have member : ((s.countsFrom f.sender).afterMembership f false).1.mem.state = .member := by
    rw [heard_mem]
    exact loseMembership_of_moveOf (s := s.countsFrom f.sender) move
  have applied := applyFrame_of_lose true none move kind
  have next := exec_frameOutcome_of_taken reads calm
  rw [taken_of_accept (by exact inStep), applied] at next
  have told := heard_told_ends s f (stateEvent .joining ca (some f.seq)) .lost ca (some f.seq)
  have counter := heard_counter s f
  have same := membershipStep_sameButRoster ((s.countsFrom f.sender).afterTable f) f false
  obtain ⟨order, table, cu⟩ : ((s.countsFrom f.sender).afterMembership f false).1.order =
      { s.order with expected := f.seq + 1, lastHeard := some f.seq } ∧
      ((s.countsFrom f.sender).afterMembership f false).1.table = (s.table.apply s.cfg s.roster.isMember f).1 ∧
      ((s.countsFrom f.sender).afterMembership f false).1.cu = s.cu := ⟨same.order, same.table, same.cu⟩
  clear same
  generalize ((s.countsFrom f.sender).afterMembership f false).1 = m at *
  have frame := m.losesPlace_frame ca (some f.seq)
  have slot := m.losesPlace_slot ca (some f.seq)
  have events := m.losesPlace_events ca (some f.seq) member
  have counters := m.losesPlace_counters ca (some f.seq)
  generalize m.losesPlace ca (some f.seq) = t at *
  have beat := t.heardFrom_beat f.sender
  rw [State.heardFrom_eq] at next
  refine ⟨_, next, (congrArg (·.order) frame).trans order, congrArg (·.mem.state) frame, congrArg (·.mem.pendingJoin) frame,
    (congrArg (·.table) frame).trans table, congrArg (·.roster) frame, beat.1.trans (congrArg (·.pres.beat) frame),
    beat.2.trans (congrArg (·.pres.beatPending) frame), (congrArg (·.cu) frame).trans ?_, slot, ?_, events.trans told⟩
  · dsimp only
    rw [cu]
  · rw [← counter]
    exact congrArg (fun v : Vector Half 28 => v[(Counter.takenFrom f.sender).index]) counters

end Heard

end Sys2Proof.Machine

/-! # JOIN, LEAVE and EVICT move the roster (R91 to R99, R110 to R112) -/

namespace Sys2Proof.Machine

/-! ### The roster after a JOIN or a LEAVE (R91, R95) -/

section Members

variable (r : Roster) (x n : StationNo) (q : Seq)

theorem Roster.removeMember_members : (r.removeMember x).members[n] = if n = x then none else r.members[n] := by
  simp only [Roster.removeMember, Fin.getElem_fin, Vector.getElem_set, Fin.ext_iff, eq_comm]

theorem Roster.add_members :
    (r.add x q).members[n] = if n = x then some { joinedAt := q, lastTaken := q } else r.members[n] := by
  simp only [Roster.add, Fin.getElem_fin, Vector.getElem_set, Fin.ext_iff, eq_comm]

theorem Roster.recordTaken_of_out (out : r.isMember x = false) : r.recordTaken x q = r := by
  unfold Roster.recordTaken
  cases member : r.members[x] with
  | none => rfl
  | some m =>
    rw [Roster.isMember, member] at out
    cases out

end Members

section Kinds

variable {s : State} {f : Frame} (own : Bool)

/-- R91: a JOIN with the group's digest. -/
theorem afterMembership_of_join {d : Half} (body : f.body = .join d) (accepted : s.roster.digest = some d) :
    (s.afterMembership f own).1.roster = (s.roster.recordTaken f.sender f.seq).add f.sender f.seq ∧
      (s.afterMembership f own).1.pres =
        (if s.isMe f.sender then s.pres else s.pres.startAbsence f.sender s.cfg.absenceTime) := by
  have digest : ((s.afterTable f).roster.recordTaken f.sender f.seq).digest = some d :=
    (Roster.recordTaken_digest ..).trans accepted
  rw [afterMembership_roster, afterMembership_pres]
  unfold State.kindApplied State.applyKind
  simp only [body, State.applyJoin, digest, decide_true, if_true]
  change (if s.isMe f.sender then (_, _) else (_, _) : State × Move).1.roster = _ ∧
    (if s.isMe f.sender then (_, _) else (_, _) : State × Move).1.pres = _
  cases own_number : s.isMe f.sender with
  | true => exact ⟨rfl, if_pos own_number⟩
  | false => exact ⟨rfl, if_neg (Bool.eq_false_iff.1 own_number)⟩

/-- R91: a JOIN with another digest. -/
theorem afterMembership_of_refused {d : Half} (body : f.body = .join d) (refused : s.roster.digest ≠ some d) :
    (s.afterMembership f own).1.roster =
        (if s.roster.isMember f.sender then (s.roster.recordTaken f.sender f.seq).removeMember f.sender else s.roster) ∧
      (s.afterMembership f own).1.pres = (if s.roster.isMember f.sender then s.pres.stopAbsence f.sender else s.pres) := by
  have digest : ¬ ({ s.afterTable f with roster := (s.afterTable f).roster.recordTaken f.sender f.seq } : State).roster.digest =
      some d := fun same => refused ((Roster.recordTaken_digest ..).symm.trans same)
  have was : ({ s.afterTable f with roster := (s.afterTable f).roster.recordTaken f.sender f.seq } : State).roster.isMember
      f.sender = s.roster.isMember f.sender := Roster.isMember_recordTaken ..
  rw [afterMembership_roster, afterMembership_pres]
  unfold State.kindApplied State.applyKind
  simp only [body, State.applyJoin, digest, decide_false, Bool.false_eq_true, if_false, was]
  cases member : s.roster.isMember f.sender with
  | true => split <;> exact ⟨rfl, rfl⟩
  | false =>
    have same : (s.afterTable f).roster.recordTaken f.sender f.seq = s.roster := Roster.recordTaken_of_out _ _ _ member
    split <;> exact ⟨same, rfl⟩

/-- R95: a LEAVE. -/
theorem afterMembership_of_leave (body : f.body = .leave) :
    (s.afterMembership f own).1.roster =
        (if s.roster.isMember f.sender then (s.roster.recordTaken f.sender f.seq).removeMember f.sender else s.roster) ∧
      (s.afterMembership f own).1.pres = (if s.roster.isMember f.sender then s.pres.stopAbsence f.sender else s.pres) := by
  have was : ({ s.afterTable f with roster := (s.afterTable f).roster.recordTaken f.sender f.seq } : State).roster.isMember
      f.sender = s.roster.isMember f.sender := Roster.isMember_recordTaken ..
  rw [afterMembership_roster, afterMembership_pres]
  unfold State.kindApplied State.applyKind
  simp only [body, State.applyLeave, was]
  cases member : s.roster.isMember f.sender with
  | true => split <;> exact ⟨rfl, rfl⟩
  | false =>
    have same : (s.afterTable f).roster.recordTaken f.sender f.seq = s.roster := Roster.recordTaken_of_out _ _ _ member
    split <;> exact ⟨same, rfl⟩

/-- R110: a stale EVICT. -/
theorem afterMembership_of_stale {target : Byte} (body : f.body = .evict target)
    (stale : ∀ x : StationNo, x.val = target.toNat → s.roster.isMember x = false ∨ x = f.sender) :
    (s.afterMembership f own).1.roster = s.roster.recordTaken f.sender f.seq ∧ (s.afterMembership f own).1.pres = s.pres ∧
      s.moveAsked f own = .stay ∧ s.newsOf f = [] ∧ s.stale f = true ∧
      s.table.apply s.cfg s.roster.isMember f = (s.table, {}) := by
  rw [afterMembership_roster, afterMembership_pres]
  by_cases near : target.toNat < 16
  · have out : (s.roster.isMember ⟨target.toNat, near⟩ && decide (⟨target.toNat, near⟩ ≠ f.sender)) = false := by
      obtain out | same := stale ⟨target.toNat, near⟩ rfl
      · rw [out, Bool.false_and]
      · rw [same]
        simp
    have was : (({ s.afterTable f with roster := (s.afterTable f).roster.recordTaken f.sender f.seq } : State).roster.isMember
        ⟨target.toNat, near⟩ && decide (⟨target.toNat, near⟩ ≠ f.sender)) = false :=
      (congrArg (· && decide (⟨target.toNat, near⟩ ≠ f.sender)) (Roster.isMember_recordTaken ..)).trans out
    have applied : (s.afterTable f).kindApplied f own =
        (State.bump { s.afterTable f with roster := (s.afterTable f).roster.recordTaken f.sender f.seq } .staleEvictions, .stay) := by
      unfold State.kindApplied State.applyKind
      simp only [body, State.applyEvict, dif_pos near, was, Bool.false_eq_true, if_false]
    rw [applied]
    refine ⟨rfl, rfl, ?_, ?_, ?_, ?_⟩
    · simp only [State.moveAsked, body, dif_pos near, out, Bool.false_and, Bool.false_eq_true, if_false]
    · simp only [State.newsOf, body, dif_pos near, out, Bool.false_eq_true, if_false]
    · simp only [State.stale, body, dif_pos near, out, Bool.not_false]
    · simp only [Table.apply, body, dif_pos near, out, Bool.false_eq_true, if_false]
  · have applied : (s.afterTable f).kindApplied f own =
        (State.bump { s.afterTable f with roster := (s.afterTable f).roster.recordTaken f.sender f.seq } .staleEvictions, .stay) := by
      unfold State.kindApplied State.applyKind
      simp only [body, State.applyEvict, dif_neg near]
    rw [applied]
    refine ⟨rfl, rfl, ?_, ?_, ?_, ?_⟩
    · simp only [State.moveAsked, body, dif_neg near]
    · simp only [State.newsOf, body, dif_neg near]
    · simp only [State.stale, body, dif_neg near]
    · simp only [Table.apply, body, dif_neg near]

end Kinds

/-! ### Records of one station at the table (R21 to R23) -/

section Owners

variable {t : Table} {cfg : Cfg} {isMember : StationNo → Bool} {f : Frame}

theorem apply_of_departure (body : f.body = .leave ∨ ∃ d, f.body = .join d) : t.apply cfg isMember f =
    if isMember f.sender then t.removeAndEvaluate cfg.poolCapacity f.seq (fun r => decide (r.owner = f.sender)) none
    else (t, {}) := by
  obtain body | ⟨d, body⟩ := body <;> simp only [Table.apply, body]

theorem owner_of_removed {cap : Nat} {seq : Seq} {x : StationNo} {tag : Option TagOutcome} {r : Record}
    (mem : r ∈ (t.removeAndEvaluate cap seq (fun r => decide (r.owner = x)) tag).1.records) : r.owner ≠ x := by
  obtain ⟨q, _, stays, owner⟩ := owner_of_mem_removeAndEvaluate mem
  rw [← owner]
  exact of_decide_eq_false stays

end Owners

/-! ### A heard frame that leaves the station's own slots -/

section Elsewhere

variable {s : State} {f : Frame}

theorem tags_of_elsewhere {rep : Report} (removed : ∀ r ∈ rep.removed, s.mem.number ≠ some r.owner)
    (grants : ∀ g ∈ rep.grants, s.mem.number ≠ some g.1) :
    s.goneTags f false rep = [] ∧ s.grantedTags f false rep = [] := by
  refine ⟨List.map_eq_nil_iff.2 (List.filter_eq_nil_iff.2 fun r mem => ?_),
    List.map_eq_nil_iff.2 (List.filter_eq_nil_iff.2 fun g mem => ?_)⟩
  · simp [State.minesRemoved, State.isMe, removed r mem]
  · simp [State.minesGrant, State.isMe, grants g mem]

/-- R147: nothing of this station in the report. -/
theorem heardStay_of_elsewhere
    (removed : ∀ r ∈ (s.table.apply s.cfg s.roster.isMember f).2.removed, s.mem.number ≠ some r.owner)
    (grants : ∀ g ∈ (s.table.apply s.cfg s.roster.isMember f).2.grants, s.mem.number ≠ some g.1) :
    (s.heardStay f).slots = s.slots ∧ (s.heardStay f).port.events = s.eventsWith (s.newsOf f ++ s.twinOf f false) := by
  have mem := heard_mem s f
  have slots := heard_slots s f
  have told := heard_told s f []
  rw [List.append_nil] at told
  unfold State.heardStay
  generalize ((s.countsFrom f.sender).afterMembership f false).1 = m at *
  have elsewhere := tags_of_elsewhere (s := m) (f := f) (rep := (s.countsFrom f.sender).reportOf f)
    (by rw [mem]; exact removed) (by rw [mem]; exact grants)
  rw [settleReport_of_elsewhere f false elsewhere.1 elsewhere.2 none]
  exact ⟨slots, told⟩

/-- R151, R154: FREE slots take no row. -/
theorem settleReport_of_free {u : State} (free : ∀ k : Tag, (u.slots.slots[k]).state = .free) (own : Bool) (rep : Report) :
    u.settleReport f own none rep = u := by
  have gone (t : Tag) : u.ownRemoved t f.seq = u := by
    have state : (u.slot t).state = .free := free t
    simp only [State.ownRemoved, state]
  have granted (t : Tag) : u.ownGrant t f.seq = u := by
    have state : (u.slot t).state = .free := free t
    simp only [State.ownGrant, state]
  have fixed {g : State → Tag → State} (same : ∀ t, g u t = u) (ts : List Tag) : ts.foldl g u = u := by
    induction ts with
    | nil => rfl
    | cons t ts ih => rw [List.foldl_cons, same, ih]
  have same : (if own then u.settleOwn f rep none else u) = u := by cases own <;> rfl
  rw [settleReport_eq, same]
  exact (congrArg (List.foldl _ · _) (fixed gone _)).trans (fixed granted _)

theorem heardStay_of_free (free : ∀ k : Tag, (s.slots.slots[k]).state = .free) :
    (s.heardStay f).slots = s.slots ∧ (s.heardStay f).port.events = s.eventsWith (s.newsOf f ++ s.twinOf f false) := by
  have slots := heard_slots s f
  have told := heard_told s f []
  rw [List.append_nil] at told
  unfold State.heardStay
  generalize ((s.countsFrom f.sender).afterMembership f false).1 = m at *
  rw [settleReport_of_free (u := m) (by rw [slots]; exact free)]
  exact ⟨slots, told⟩

end Elsewhere

end Sys2Proof.Machine

/-! # A peer's JOIN, LEAVE or EVICT taken, and dissolution (R91, R95, R98, R110 to R112) -/

namespace Sys2Proof.Machine

/-! ### A heard frame that leaves the station in its place -/

/-- The roster and the presence timers once a heard frame has acted on them. -/
def State.heardMembers (s : State) (f : Frame) : State := ((s.countsFrom f.sender).afterMembership f false).1

/-- R45, R105: what a heard frame leaves that is neither BEAT nor SYNCREQ and leaves the station state. -/
structure State.KeptTaken (s : State) (f : Frame) (t : State) : Prop where
  order : t.order = { s.order with expected := f.seq + 1, lastHeard := some f.seq }
  table : t.table = (s.table.apply s.cfg s.roster.isMember f).1
  mem : t.mem = s.mem
  cu : t.cu = s.cu
  roster : t.roster = (s.heardMembers f).roster
  absence : ∀ n : StationNo, t.pres.absence[n] =
    if f.sender = n ∧ (s.heardMembers f).roster.isMember n = true ∧ s.mem.number ≠ some n ∧
        (s.heardMembers f).pres.absence[n] ≠ .stopped then .running s.cfg.absenceTime
      else (s.heardMembers f).pres.absence[n]
  counters : t.port.counters =
    if s.stale f then ((s.countsFrom f.sender).bump .staleEvictions).port.counters else (s.countsFrom f.sender).port.counters
  slots : t.slots = (s.heardStay f).slots
  events : t.port.events = (s.heardStay f).port.events

section Kept

variable {s : State} {f : Frame}

theorem heard_kept {others : List Bool} (reads : s.readsSlot (.good f) .accept others true true)
    (calm : s.line.faulted = none) (inStep : s.order.step = .inStep)
    (stay : (s.countsFrom f.sender).moveOf f false = .stay) (kind : f.body.kind ≠ .beat ∧ f.body.kind ≠ .syncreq) :
    ∃ t, exec (.frameOutcome others) s = .next t ∧ s.KeptTaken f t := by
  have next := exec_frameOutcome_of_stay reads calm inStep stay
  rw [lastStep_of_tabled _ _ _ _ (.inl kind)] at next
  have kept := s.heardStay_frame f
  have absence := (s.heardStay f).heardFrom_absence f.sender
  rw [kept.roster, kept.pres, kept.mem, kept.cfg] at absence
  rw [State.heardFrom_eq] at next
  exact ⟨_, next, {
    order := kept.order, table := kept.table, mem := kept.mem, cu := kept.cu, roster := kept.roster, absence := absence
    counters := kept.counters, slots := rfl, events := rfl }⟩

/-- R98: the frame moves the station only as it asks, where a member is left. -/
theorem moveOf_of_left {n : StationNo} (member : (s.heardMembers f).roster.isMember n = true)
    (kind : f.body.kind ≠ .syncreq) : (s.countsFrom f.sender).moveOf f false = s.moveAsked f false := by
  rw [moveOf_eq, show ((s.countsFrom f.sender).afterMembership f false).1 = s.heardMembers f from rfl,
    Roster.dissolvedBy_of_member member (.inl kind)]
  change (s.moveAsked f false).withDissolution false = s.moveAsked f false
  cases s.moveAsked f false <;> rfl

theorem Roster.members_of_out {r : Roster} {n : StationNo} (out : r.isMember n = false) : r.members[n] = none := by
  rw [Roster.isMember, Option.isSome_eq_false_iff] at out
  exact Option.isNone_iff_eq_none.1 out

/-- R95: a member that its own frame takes out of the roster. -/
theorem departed_members (r : Roster) (x n : StationNo) (q : Seq) :
    (if r.isMember x then (r.recordTaken x q).removeMember x else r).members[n] =
      if n = x then none else r.members[n] := by
  cases member : r.isMember x with
  | true =>
    rw [if_pos rfl, Roster.removeMember_members, Roster.recordTaken_members]
    split <;> rfl
  | false =>
    rw [if_neg Bool.false_ne_true]
    split
    · next same => rw [same, Roster.members_of_out member]
    · rfl

theorem departed_digest (r : Roster) (x : StationNo) (q : Seq) :
    (if r.isMember x then (r.recordTaken x q).removeMember x else r).digest = r.digest := by
  split
  · exact Roster.recordTaken_digest r x q
  · rfl

theorem departed_isMember (r : Roster) (x n : StationNo) (q : Seq) :
    (if r.isMember x then (r.recordTaken x q).removeMember x else r).isMember n = (decide (n ≠ x) && r.isMember n) := by
  rw [Roster.isMember, departed_members, Roster.isMember]
  by_cases same : n = x <;> simp [same]

end Kept

theorem stopAbsence_stopped (p : Presence) (x : StationNo) : (p.stopAbsence x).absence[x] = .stopped := by
  simp [Presence.stopAbsence]

/-! ### A LEAVE, and a JOIN with another digest -/

/-- R91, R95: the frame takes its sender out of the roster. -/
def State.departs (s : State) (f : Frame) : Prop := f.body = .leave ∨ ∃ d, f.body = .join d ∧ s.roster.digest ≠ some d

section Departure

variable {s : State} {f : Frame} (departs : s.departs f)

include departs

theorem State.departs.kind : f.body.kind ≠ .beat ∧ f.body.kind ≠ .syncreq := by
  obtain body | ⟨d, body, _⟩ := departs <;> simp [body, Body.kind]

theorem State.departs.report : s.table.apply s.cfg s.roster.isMember f =
    if s.roster.isMember f.sender then
      s.table.removeAndEvaluate s.cfg.poolCapacity f.seq (fun r => decide (r.owner = f.sender)) none
    else (s.table, {}) := apply_of_departure (departs.imp_right fun ⟨d, body, _⟩ => ⟨d, body⟩)

theorem State.departs.stale : s.stale f = false := by
  obtain body | ⟨d, body, _⟩ := departs <;> simp only [State.stale, body]

theorem State.departs.members :
    (s.heardMembers f).roster =
        (if s.roster.isMember f.sender then (s.roster.recordTaken f.sender f.seq).removeMember f.sender else s.roster) ∧
      (s.heardMembers f).pres = (if s.roster.isMember f.sender then s.pres.stopAbsence f.sender else s.pres) := by
  obtain body | ⟨d, body, refused⟩ := departs
  · exact afterMembership_of_leave (s := s.countsFrom f.sender) false body
  · exact afterMembership_of_refused (s := s.countsFrom f.sender) false body refused

theorem State.departs.isMember (n : StationNo) :
    (s.heardMembers f).roster.isMember n = (decide (n ≠ f.sender) && s.roster.isMember n) := by
  rw [departs.members.1, departed_isMember]

theorem State.departs.removed_owner {r : Record} (mem : r ∈ (s.table.apply s.cfg s.roster.isMember f).2.removed) :
    r.owner = f.sender := by
  rw [departs.report] at mem
  split at mem
  · exact Machine.removed_owner mem
  · cases mem

theorem State.departs.stays (peer : s.isMe f.sender = false) : s.moveAsked f false = .stay := by
  obtain body | ⟨d, body, _⟩ := departs <;> simp only [State.moveAsked, body, peer, Bool.false_eq_true, if_false]

/-- R91, R95: a peer leaves the roster and others remain. -/
theorem peerDeparts {others : List Bool} (reads : s.readsSlot (.good f) .accept others true true)
    (calm : s.line.faulted = none) (inStep : s.order.step = .inStep) (peer : s.isMe f.sender = false)
    (remain : ∃ n : StationNo, s.roster.isMember n = true ∧ n ≠ f.sender) :
    ∃ t, exec (.frameOutcome others) s = .next t ∧ t.order.expected = f.seq + 1 ∧
      (∀ n : StationNo, t.roster.members[n] = if n = f.sender then none else s.roster.members[n]) ∧
      t.roster.digest = s.roster.digest ∧ t.mem = s.mem ∧
      (s.roster.isMember f.sender = false → t.table = s.table) ∧
      (s.roster.isMember f.sender = true →
        (∀ rec ∈ t.table.records, rec.owner ≠ f.sender) ∧ t.pres.absence[f.sender] = .stopped) ∧
      (¬ (∃ g ∈ (s.table.apply s.cfg s.roster.isMember f).2.grants, s.mem.number = some g.1) →
        t.slots = s.slots ∧ t.port.events = s.eventsWith (s.newsOf f)) := by
  obtain ⟨n, member, other⟩ := remain
  have stay : (s.countsFrom f.sender).moveOf f false = .stay := by
    rw [moveOf_of_left (n := n) (by rw [departs.isMember, member]; simpa using other) departs.kind.2, departs.stays peer]
  obtain ⟨t, next, kept⟩ := heard_kept reads calm inStep stay departs.kind
  have report := departs.report
  obtain ⟨roster, pres⟩ := departs.members
  refine ⟨t, next, congrArg (·.expected) kept.order, fun n => ?_, ?_, kept.mem, fun out => ?_, fun listed => ⟨?_, ?_⟩,
    fun quiet => ?_⟩
  · rw [kept.roster, roster, departed_members]
  · rw [kept.roster, roster, departed_digest]
  · rw [kept.table, report, out]
    rfl
  · rw [kept.table, report, if_pos listed]
    exact fun rec mem => owner_of_removed mem
  · rw [kept.absence, departs.isMember, if_neg (by simp), pres, if_pos listed, stopAbsence_stopped]
  · have elsewhere := heardStay_of_elsewhere (s := s) (f := f)
      (fun r mem => by rw [departs.removed_owner mem]; exact of_decide_eq_false peer)
      (fun g mem mine => quiet ⟨g, mem, mine⟩)
    have single : s.twinOf f false = [] := by simp [State.twinOf, State.isForeign, peer]
    rw [kept.slots, kept.events, elsewhere.1, elsewhere.2, single, List.append_nil]
    exact ⟨rfl, rfl⟩

end Departure

/-! ### A JOIN with the group's digest -/

/-- R91, R104: a peer joins, or renews its place. -/
theorem peerJoins {s : State} {f : Frame} {others : List Bool} {d : Half}
    (reads : s.readsSlot (.good f) .accept others true true)
    (calm : s.line.faulted = none) (inStep : s.order.step = .inStep) (peer : s.isMe f.sender = false)
    (body : f.body = .join d) (accepted : s.roster.digest = some d) :
    ∃ t, exec (.frameOutcome others) s = .next t ∧ t.order.expected = f.seq + 1 ∧
      (∀ n : StationNo, t.roster.members[n] =
        if n = f.sender then some { joinedAt := f.seq, lastTaken := f.seq } else s.roster.members[n]) ∧
      t.roster.digest = s.roster.digest ∧ t.mem = s.mem ∧
      (s.roster.isMember f.sender = false → t.table = s.table) ∧
      (s.roster.isMember f.sender = true → ∀ rec ∈ t.table.records, rec.owner ≠ f.sender) ∧
      t.pres.absence[f.sender] = .running s.cfg.absenceTime ∧
      (¬ (∃ g ∈ (s.table.apply s.cfg s.roster.isMember f).2.grants, s.mem.number = some g.1) →
        t.slots = s.slots ∧ t.port.events = s.eventsWith (s.newsOf f)) := by
  have kind : f.body.kind ≠ .beat ∧ f.body.kind ≠ .syncreq := by simp [body, Body.kind]
  have members := afterMembership_of_join (s := s.countsFrom f.sender) false body accepted
  have roster : (s.heardMembers f).roster = (s.roster.recordTaken f.sender f.seq).add f.sender f.seq := members.1
  have pres : (s.heardMembers f).pres = s.pres.startAbsence f.sender s.cfg.absenceTime :=
    members.2.trans (if_neg (by rw [show (s.countsFrom f.sender).isMe f.sender = s.isMe f.sender from rfl, peer]; exact nofun))
  have asked : s.moveAsked f false = .stay := by
    simp only [State.moveAsked, body, peer, Bool.false_eq_true, if_false]
  have stay : (s.countsFrom f.sender).moveOf f false = .stay := by
    rw [moveOf_of_left (n := f.sender) (by rw [roster]; simp) kind.2, asked]
  obtain ⟨t, next, kept⟩ := heard_kept reads calm inStep stay kind
  have report := apply_of_departure (t := s.table) (cfg := s.cfg) (isMember := s.roster.isMember) (.inr ⟨d, body⟩)
  have removed (r : Record) (mem : r ∈ (s.table.apply s.cfg s.roster.isMember f).2.removed) : r.owner = f.sender := by
    rw [report] at mem
    split at mem
    · exact removed_owner mem
    · cases mem
  refine ⟨t, next, congrArg (·.expected) kept.order, fun n => ?_, ?_, kept.mem, fun out => ?_, fun listed => ?_, ?_,
    fun quiet => ?_⟩
  · rw [kept.roster, roster, Roster.add_members, Roster.recordTaken_members]
    split <;> rfl
  · rw [kept.roster, roster]
    exact Roster.recordTaken_digest ..
  · rw [kept.table, report, out]
    rfl
  · rw [kept.table, report, if_pos listed]
    exact fun rec mem => owner_of_removed mem
  · rw [kept.absence, pres, ite_eq_left_iff]
    intro _
    simp [Presence.startAbsence]
  · have elsewhere := heardStay_of_elsewhere (s := s) (f := f)
      (fun r mem => by rw [removed r mem]; exact of_decide_eq_false peer)
      (fun g mem mine => quiet ⟨g, mem, mine⟩)
    have single : s.twinOf f false = [] := by simp [State.twinOf, State.isForeign, peer]
    rw [kept.slots, kept.events, elsewhere.1, elsewhere.2, single, List.append_nil]
    exact ⟨rfl, rfl⟩

/-! ### An EVICT without a target, or of another station -/

section Evict

variable {s : State} {f : Frame} {others : List Bool} (reads : s.readsSlot (.good f) .accept others true true)
  (calm : s.line.faulted = none) (inStep : s.order.step = .inStep)

include reads calm inStep

/-- R110: a stale EVICT is counted and moves nothing. -/
theorem heardStale {target : Byte} (body : f.body = .evict target)
    (stale : ∀ x : StationNo, x.val = target.toNat → s.roster.isMember x = false ∨ x = f.sender)
    (some_ : ∃ n, s.roster.isMember n = true) :
    ∃ t, exec (.frameOutcome others) s = .next t ∧ s.KeptTaken f t ∧ t.table = s.table ∧
      t.roster = s.roster.recordTaken f.sender f.seq ∧ t.port.counters[6] = satInc s.port.counters[6] ∧
      t.slots = s.slots ∧ t.port.events = s.eventsWith (s.twinOf f false) ∧
      ∀ n : StationNo, n ≠ f.sender → t.pres.absence[n] = s.pres.absence[n] := by
  have kind : f.body.kind ≠ .beat ∧ f.body.kind ≠ .syncreq := by simp [body, Body.kind]
  obtain ⟨roster, pres, asked, news, counted, report⟩ :=
    afterMembership_of_stale (s := s.countsFrom f.sender) false body stale
  have roster : (s.heardMembers f).roster = s.roster.recordTaken f.sender f.seq := roster
  have pres : (s.heardMembers f).pres = s.pres := pres
  have report : s.table.apply s.cfg s.roster.isMember f = (s.table, {}) := report
  obtain ⟨n, member⟩ := some_
  have stay : (s.countsFrom f.sender).moveOf f false = .stay := by
    rw [moveOf_of_left (n := n) (by rw [roster, Roster.isMember_recordTaken, member]) kind.2]
    exact asked
  obtain ⟨t, next, kept⟩ := heard_kept reads calm inStep stay kind
  have elsewhere := heardStay_of_elsewhere (s := s) (f := f) (by rw [report]; exact nofun) (by rw [report]; exact nofun)
  rw [show s.newsOf f = [] from news, List.nil_append] at elsewhere
  refine ⟨t, next, kept, kept.table.trans (congrArg Prod.fst report), kept.roster.trans roster, ?_,
    kept.slots.trans elsewhere.1, kept.events.trans elsewhere.2, fun n other => ?_⟩
  · rw [kept.counters, if_pos (by exact counted)]
    refine (State.bump_self _ .staleEvictions).trans (congrArg satInc ?_)
    exact State.bump_other _ _ (Counter.fixed_ne_takenFrom (by decide) _)
  · rw [kept.absence, if_neg fun all => other all.1.symm, pres]

variable {x other : StationNo} (body : f.body = .evict (byteOf x.val)) (member : s.roster.isMember x = true)
  (apart : x ≠ f.sender) (remains : s.roster.isMember other = true) (third : other ≠ x)

include body member apart remains third

omit calm inStep reads in
theorem moveOf_of_evict : (s.countsFrom f.sender).moveOf f false =
    if s.isMe x then ownLoss s.mem.state .evicted else .stay := by
  obtain ⟨roster, _, asked, _, _⟩ := afterMembership_of_evict (s := s.countsFrom f.sender) body member apart false
  have left : (s.heardMembers f).roster.isMember other = true := by
    rw [show (s.heardMembers f).roster = _ from roster, Roster.isMember_removeMember, Roster.isMember_recordTaken]
    rw [show (s.countsFrom f.sender).roster.isMember other = true from remains]
    simpa using third
  rw [moveOf_of_left left (by simp [body, Body.kind])]
  exact asked

omit calm inStep reads remains third in
theorem evicted_members :
    (∀ n, (s.heardMembers f).roster.isMember n = (decide (n ≠ x) && s.roster.isMember n)) ∧
      (s.heardMembers f).pres = s.pres.stopAbsence x ∧
      (∀ rec ∈ (s.table.apply s.cfg s.roster.isMember f).1.records, rec.owner ≠ x) ∧
      ∀ r ∈ (s.table.apply s.cfg s.roster.isMember f).2.removed, r.owner = x := by
  obtain ⟨roster, pres, _, _, _⟩ := afterMembership_of_evict (s := s.countsFrom f.sender) body member apart false
  refine ⟨fun n => ?_, pres, ?_, ?_⟩
  · rw [show (s.heardMembers f).roster = _ from roster, Roster.isMember_removeMember, Roster.isMember_recordTaken]
    rfl
  · rw [apply_of_evict body member apart]
    exact fun rec mem => owner_of_removed mem
  · rw [apply_of_evict body member apart]
    exact fun r mem => removed_owner mem

/-- R110, R111: an EVICT that leaves this station its place. -/
theorem heardEvicts (keeps : (if s.isMe x then ownLoss s.mem.state .evicted else .stay) = .stay) :
    ∃ t, exec (.frameOutcome others) s = .next t ∧ s.KeptTaken f t ∧
      (∀ n, t.roster.isMember n = (decide (n ≠ x) && s.roster.isMember n)) ∧
      (∀ rec ∈ t.table.records, rec.owner ≠ x) ∧ t.pres.absence[x] = .stopped ∧
      s.newsOf f = [peerEvent .peerOut x (some .evicted) f.seq] := by
  have stay : (s.countsFrom f.sender).moveOf f false = .stay :=
    (moveOf_of_evict body member apart remains third).trans keeps
  obtain ⟨t, next, kept⟩ := heard_kept reads calm inStep stay (by simp [body, Body.kind])
  obtain ⟨roster, pres, records, _⟩ := evicted_members body member apart
  obtain ⟨_, _, _, news, _⟩ := afterMembership_of_evict (s := s) body member apart false
  refine ⟨t, next, kept, fun n => ?_, ?_, ?_, ?_⟩
  · rw [kept.roster, roster]
  · rw [kept.table]
    exact records
  · rw [kept.absence, roster, if_neg (by simp), pres, stopAbsence_stopped]
  · rw [news, if_neg]
    rw [Bool.and_eq_true, decide_eq_true_eq]
    rintro ⟨mine, loses⟩
    rw [if_pos mine] at keeps
    exact loses keeps

end Evict

end Sys2Proof.Machine

/-! # Membership frames: dissolution, and frames of the own number (R96, R98, R99, R112) -/

namespace Sys2Proof.Machine

section Dissolution

variable {s : State} {f : Frame} {others : List Bool} (reads : s.readsSlot (.good f) .accept others true true)
  (calm : s.line.faulted = none) (inStep : s.order.step = .inStep)

/-- R98: the frame leaves nobody, or nobody who could serve. -/
def State.leavesNobody (s : State) (f : Frame) : Prop :=
  (∀ n, (s.heardMembers f).roster.isMember n = false) ∨
    f.body.kind = .syncreq ∧ ∀ n, (s.heardMembers f).roster.isMember n = true → n = f.sender

theorem moveOf_of_nobody (nobody : s.leavesNobody f) :
    (s.countsFrom f.sender).moveOf f false = (s.moveAsked f false).withDissolution true := by
  have dissolved : (s.heardMembers f).roster.dissolvedBy f = true := by
    obtain out | ⟨kind, alone⟩ := nobody
    · exact (Roster.dissolvedBy_of_alone fun n member => by rw [out n] at member; cases member).2 (.inr out)
    · exact (Roster.dissolvedBy_of_alone fun n member => ⟨kind, alone n member⟩).2 (.inl kind)
  rw [moveOf_eq, show ((s.countsFrom f.sender).afterMembership f false).1 = s.heardMembers f from rfl, dissolved]
  rfl

/-- The station ends outside the group, in the state given. -/
def State.endsOutside (s : State) (f : Frame) (others : List Bool) (st : StationState) (c : Cause) (first : List Event) : Prop :=
  ∃ t, exec (.frameOutcome others) s = .next t ∧ t.mem.state = st ∧ t.outOfGroup ∧
    t.mem.listen = (if st = .listening then .running (s.cfg.absenceLimit * s.cfg.beatInterval) else .stopped) ∧
    (st = .listening → t.order.lastHeard = none) ∧
    t.port.events = s.eventsWith (first ++ { kind := .stationState, state := some st, cause := some (.cause c)
                                             seq := some f.seq } :: s.slotEnds .lost c f.seq)

include reads calm inStep

theorem endsOutside_of_nobody (nobody : s.leavesNobody f) (kind : f.body.kind ≠ .beat)
    (asked : ∀ st c, s.moveAsked f false ≠ .leaveGroup st c) :
    s.endsOutside f others .listening .dissolved (s.newsOf f ++ s.twinOf f false) := by
  have move : (s.countsFrom f.sender).moveOf f false = .dissolve := by
    rw [moveOf_of_nobody nobody]
    cases is : s.moveAsked f false with
    | leaveGroup st c => exact absurd is (asked st c)
    | _ => rfl
  obtain ⟨t, next, state, listen, out, lastHeard, events⟩ := heard_dissolve reads calm inStep move kind
  exact ⟨t, next, state, out, listen, fun _ => lastHeard, events⟩

theorem endsOutside_of_leaveGroup {st : StationState} {ca : Cause} (asked : s.moveAsked f false = .leaveGroup st ca)
    (other : ca ≠ .left) (outside : st ≠ .listening) (kind : f.body.kind ≠ .beat ∧ f.body.kind ≠ .syncreq) :
    s.endsOutside f others st ca (s.newsOf f ++ s.twinOf f false) := by
  have move : (s.countsFrom f.sender).moveOf f false = .leaveGroup st ca := by
    rw [moveOf_eq, show (s.countsFrom f.sender).moveAsked f false = .leaveGroup st ca from asked]
    rfl
  obtain ⟨t, next, state, listen, out, events⟩ := heard_leaveGroup reads calm inStep move other kind
  exact ⟨t, next, state, out, listen.trans (if_neg outside).symm, fun here => absurd here outside, events⟩

end Dissolution

/-! ### The move and the events that a frame asks for -/

section Asked

variable {s : State} {f : Frame}

theorem newsOf_leave_peer (body : f.body = .leave) (peer : s.isMe f.sender = false) : s.newsOf f =
    if s.roster.isMember f.sender then [peerEvent .peerOut f.sender (some .left) f.seq] else [] := by
  simp only [State.newsOf, body, peer, Bool.false_eq_true, if_false]

theorem newsOf_join_peer {d : Half} (body : f.body = .join d) (peer : s.isMe f.sender = false) : s.newsOf f =
    if s.roster.digest = some d then
      [peerEvent .peerIn f.sender (some (if s.roster.isMember f.sender then .renewed else .new)) f.seq]
    else [peerEvent .peerRefused f.sender none f.seq] := by
  simp only [State.newsOf, body, peer, Bool.false_eq_true, if_false]

theorem twinOf_peer (peer : s.isMe f.sender = false) : s.twinOf f false = [] := by
  simp [State.twinOf, State.isForeign, peer]

theorem twinOf_own (own : s.isMe f.sender = true) :
    s.twinOf f false = [{ kind := .duplicate, seq := some f.seq, cause := some (.kind f.body.kind) }] := by
  simp [State.twinOf, State.isForeign, own, duplicateEvent]

variable {x : StationNo} (body : f.body = .evict (byteOf x.val)) (member : s.roster.isMember x = true) (apart : x ≠ f.sender)

include body member apart

theorem moveAsked_of_evict :
    s.moveAsked f false = (if s.isMe x then ownLoss s.mem.state .evicted else .stay) ∧
      s.newsOf f = if s.isMe x && decide (ownLoss s.mem.state .evicted ≠ .stay) then []
        else [peerEvent .peerOut x (some .evicted) f.seq] := by
  obtain ⟨_, _, asked, news, _⟩ := afterMembership_of_evict (s := s) body member apart false
  exact ⟨asked, news⟩

theorem leavesNobody_of_evict (only : ∀ n, s.roster.isMember n = true ↔ n = x) : s.leavesNobody f := by
  refine .inl fun n => ?_
  rw [(evicted_members body member apart).1, Bool.and_eq_false_iff, decide_eq_false_iff_not, not_not]
  by_cases same : n = x
  · exact .inl same
  · exact .inr (Bool.eq_false_iff.2 fun here => same ((only n).1 here))

end Asked

/-! ### This station evicted, or its number gone -/

/-- R96, R112: the MEMBER that has lost its place. -/
theorem heardLosesPlace {s : State} {f : Frame} {others : List Bool} {ca : Cause} {n : StationNo}
    (reads : s.readsSlot (.good f) .accept others true true) (calm : s.line.faulted = none) (inStep : s.order.step = .inStep)
    (asked : s.moveAsked f false = .loseMembership ca) (left : (s.heardMembers f).roster.isMember n = true)
    (kind : f.body.kind ≠ .beat ∧ f.body.kind ≠ .syncreq) :
    ∃ t, exec (.frameOutcome others) s = .next t ∧ t.order.expected = f.seq + 1 ∧ t.order.step = .inStep ∧
      t.mem.state = .joining ∧ t.mem.pendingJoin = true ∧ t.table = (s.table.apply s.cfg s.roster.isMember f).1 ∧
      t.roster = (s.heardMembers f).roster ∧ t.pres.beat = .stopped ∧ t.pres.beatPending = false ∧
      t.cu.serve = none ∧ t.cu.serveList = [] ∧ (∀ k : Tag, t.slots.slots[k] = Slot.empty) ∧
      (∀ l : LineNo, t.lineAsserted l ≠ some true) ∧
      t.port.counters[(Counter.takenFrom f.sender).index] = satInc s.port.counters[(Counter.takenFrom f.sender).index] ∧
      t.port.events = s.eventsWith
        (s.newsOf f ++ s.twinOf f false ++ stateEvent .joining ca (some f.seq) :: s.slotEnds .lost ca (some f.seq)) := by
  have move := (moveOf_of_left left kind.2).trans asked
  obtain ⟨t, next, order, state, pending, table, roster, beat, beatPending, cu, slots, counter, events⟩ :=
    heard_lose reads calm inStep move kind
  refine ⟨t, next, congrArg (·.expected) order, (congrArg (·.step) order).trans inStep, state, pending, table, roster,
    beat, beatPending, ?_, ?_, slots, ?_, counter, events⟩
  · rw [cu]
    rfl
  · rw [cu]
    rfl
  · exact State.lineAsserted_of_not_memberInStep (by simp [State.memberInStep, state])

end Sys2Proof.Machine

/-! # JOIN, LEAVE and EVICT move the roster: frames of the own number, and the obligation -/

namespace Sys2Proof.Machine

/-! ### A frame of the own number that leaves the station its place (R99) -/

theorem State.KeptTaken.sender {s t : State} {f : Frame} (h : s.KeptTaken f t) :
    t.port.counters[(Counter.takenFrom f.sender).index] = satInc s.port.counters[(Counter.takenFrom f.sender).index] := by
  rw [h.counters, ← s.countsFrom_counters f.sender]
  split
  · exact State.bump_other _ .staleEvictions (Counter.fixed_ne_takenFrom (by decide) f.sender).symm
  · rfl

/-- R45, R99: what a frame of the own number leaves that is no JOIN, LEAVE or EVICT. -/
structure State.TwinTaken (s : State) (f : Frame) (t : State) : Prop where
  expected : t.order.expected = f.seq + 1
  step : t.order.step = .inStep
  table : t.table = (s.table.apply s.cfg s.roster.isMember f).1
  sender : t.port.counters[(Counter.takenFrom f.sender).index] = satInc s.port.counters[(Counter.takenFrom f.sender).index]
  mem : t.mem = s.mem
  cu : t.cu = s.cu

section Twin

variable {s : State} {f : Frame} {others : List Bool} {other : StationNo}
  (reads : s.readsSlot (.good f) .accept others true true) (calm : s.line.faulted = none) (inStep : s.order.step = .inStep)
  (own : s.mem.number = some f.sender) (remains : s.roster.isMember other = true) (apart : other ≠ f.sender)

/-- R50, R120: a station neither serves nor goes BEHIND by a frame of its own number. -/
theorem lastStep_of_twin {u : State} (number : u.mem.number = some f.sender) (kept : Half) :
    u.lastStep f false kept =
      if ∃ fp, f.body = .beat fp ∧ fp ≠ kept then
        (u.emit { kind := .mismatch, station := some f.sender, seq := some f.seq }).bump .mismatches
      else u := by
  have unnamed : u.roster.server f.sender ≠ some f.sender := by
    intro named
    have found := List.find?_some named
    simp at found
  unfold State.lastStep
  cases body : f.body with
  | syncreq => simp [designate_of_unnamed number unnamed]
  | beat fp =>
    by_cases same : fp = kept
    · simp [State.compareFingerprint, same]
    · have foreign : u.isForeign f false = true := by simp [State.isForeign, State.isMe, number]
      dsimp only
      rw [compareFingerprint_frame u f false fp kept same, if_neg (by rw [foreign]; simp), if_pos ⟨fp, rfl, same⟩]
  | _ => simp

include reads calm inStep own remains apart

theorem twinPlain (kind : f.body.kind = .claim ∨ f.body.kind = .release ∨ f.body.kind = .withdraw ∨
      f.body.kind = .syncreq ∨ f.body.kind = .beat) :
    ∃ t, exec (.frameOutcome others) s = .next t ∧ s.TwinTaken f t ∧
      ((s.heardStay f).slots = s.slots ∧ (s.heardStay f).port.events = s.eventsWith (s.newsOf f ++ s.twinOf f false) →
        t.slots = s.slots ∧
        (f.body.kind ≠ .beat ∨ f.body = .beat s.fingerprint → t.port.events =
          s.eventsWith [{ kind := .duplicate, seq := some f.seq, cause := some (.kind f.body.kind) }]) ∧
        (∀ fp, f.body = .beat fp → fp ≠ s.fingerprint → t.port.events = s.eventsWith
          [{ kind := .duplicate, seq := some f.seq, cause := some (.kind f.body.kind) },
            { kind := .mismatch, station := some f.sender, seq := some f.seq }])) := by
  have plain : f.body.kind ≠ .join ∧ f.body.kind ≠ .leave ∧ f.body.kind ≠ .evict := by
    obtain kind | kind | kind | kind | kind := kind <;> simp [kind]
  have stay : (s.countsFrom f.sender).moveOf f false = .stay :=
    moveOf_of_plain (s := s.countsFrom f.sender) plain remains (.inr apart)
  have next := exec_frameOutcome_of_stay reads calm inStep stay
  have kept := s.heardStay_frame f
  obtain ⟨_, _, counters⟩ := kept.of_plain plain
  have counted : (s.heardStay f).port.counters[(Counter.takenFrom f.sender).index] =
      satInc s.port.counters[(Counter.takenFrom f.sender).index] := by
    rw [counters]
    exact s.countsFrom_counters f.sender
  have taken : s.TwinTaken f (s.heardStay f) := {
    expected := congrArg (·.expected) kept.order, step := (congrArg (·.step) kept.order).trans inStep
    table := kept.table, mem := kept.mem, cu := kept.cu, sender := counted }
  obtain ⟨_, _, _, news, _⟩ := afterMembership_of_plain s f false plain
  rw [lastStep_of_twin (by rw [kept.mem]; exact own)] at next
  rw [news, twinOf_own (decide_eq_true own), List.nil_append]
  generalize s.heardStay f = u at *
  by_cases differs : ∃ fp, f.body = .beat fp ∧ fp ≠ s.fingerprint
  · rw [if_pos differs] at next
    rw [State.heardFrom_eq] at next
    refine ⟨_, next, { taken with sender := ?_ }, fun settled => ⟨settled.1, fun same => ?_, fun fp body _ => ?_⟩⟩
    · rw [← counted]
      refine (State.bump_other _ .mismatches (Counter.fixed_ne_takenFrom (by decide) f.sender).symm).trans ?_
      exact congrArg (fun v : Vector Half 28 => v[(Counter.takenFrom f.sender).index]) (Port.append_counters ..)
    · obtain ⟨fp, body, apart⟩ := differs
      obtain other | equal := same
      · exact absurd (congrArg Body.kind body) other
      · exact absurd (Body.beat.inj (body.symm.trans equal)) apart
    · exact Port.eventsWith_after settled.2 [{ kind := .mismatch, station := some f.sender, seq := some f.seq }]
  · rw [if_neg differs, State.heardFrom_eq] at next
    exact ⟨_, next, { taken with }, fun settled => ⟨settled.1, fun _ => settled.2,
      fun fp body apart => absurd ⟨fp, body, apart⟩ differs⟩⟩

/-- R96, R99: a LEAVE of the own number that leaves the station its place. -/
theorem twinLeaves (body : f.body = .leave)
    (keeps : (if s.roster.isMember f.sender then ownLoss s.mem.state .removed else .stay) = .stay) :
    ∃ t, exec (.frameOutcome others) s = .next t ∧ s.KeptTaken f t ∧
      t.roster = (if s.roster.isMember f.sender then (s.roster.recordTaken f.sender f.seq).removeMember f.sender else s.roster) ∧
      ((s.heardStay f).slots = s.slots ∧ (s.heardStay f).port.events = s.eventsWith (s.newsOf f ++ s.twinOf f false) →
        t.slots = s.slots ∧ t.port.events =
          s.eventsWith [{ kind := .duplicate, seq := some f.seq, cause := some (.kind f.body.kind) }]) := by
  have isMe : s.isMe f.sender = true := decide_eq_true own
  have departs : s.departs f := .inl body
  have stay : (s.countsFrom f.sender).moveOf f false = .stay := by
    rw [moveOf_of_left (n := other) (by rw [departs.isMember, remains]; simpa using apart) departs.kind.2, ← keeps]
    simp only [State.moveAsked, body, isMe, if_true, Bool.false_eq_true, if_false]
  obtain ⟨t, next, kept⟩ := heard_kept reads calm inStep stay departs.kind
  have news : s.newsOf f = [] := by simp only [State.newsOf, body, isMe, if_true]
  rw [news, twinOf_own isMe, List.nil_append]
  exact ⟨t, next, kept, kept.roster.trans departs.members.1,
    fun settled => ⟨kept.slots.trans settled.1, kept.events.trans settled.2⟩⟩

end Twin

/-! ### The own LEAVE and the own JOIN (R91, R92, R95) -/

section Own

variable {s : State} {a : Attempt} {levels : List Bool} {me : StationNo} (whole : s.completes a levels true true)
  (inStep : s.order.step = .inStep) (number : s.mem.number = some me) (sender : a.frame.sender = me)

/-- R66: the own frame counted, and no longer pending. -/
structure State.OwnCounted (s c : State) : Prop where
  slots : c.slots = s.slots
  events : c.port.events = s.port.events
  roster : c.roster = s.roster
  table : c.table = s.table
  cfg : c.cfg = s.cfg
  step : c.order.step = s.order.step
  state : c.mem.state = s.mem.state
  number : c.mem.number = s.mem.number
  taken : c.port.counters[0] = satInc s.port.counters[0]

include whole inStep in
theorem ownMember_counted (source : a.source = .leave ∨ a.source = .join) (sequenced : a.frame.body.kind ≠ .snap) :
    ∃ c, exec (.ownFrameOutcome levels) s = .next (c.applyFrame true true none a.frame) ∧ s.OwnCounted c := by
  have next := exec_ownFrameOutcome_of_taken whole sequenced
  rw [ownTaken_of_inStep (by exact inStep)] at next
  have taken := State.bump_self s .framesTaken
  obtain source | source := source <;> rw [source] at next <;>
    exact ⟨_, next, { slots := rfl, events := rfl, roster := rfl, table := rfl, cfg := rfl, step := rfl, state := rfl
                      number := rfl, taken := taken }⟩

/-- R92, R95: the own frame ends the station's place. -/
theorem ownLeavesGroup {c : State} {st : StationState} {ca : Cause} (counted : s.OwnCounted c)
    (asked : c.moveAsked a.frame true = .leaveGroup st ca) (news : c.newsOf a.frame = []) (fresh : c.stale a.frame = false)
    (kind : a.frame.body.kind ≠ .beat ∧ a.frame.body.kind ≠ .syncreq) :
    let t := c.applyFrame true true none a.frame
    t.mem.state = st ∧ t.outOfGroup ∧ t.port.counters[0] = satInc s.port.counters[0] ∧
      t.port.events = s.eventsWith (stateEvent st ca (some a.frame.seq) ::
        s.slotEnds (if st = .detached ∧ ca = .left then .freed else .lost) ca (some a.frame.seq)) := by
  have move : c.moveOf a.frame true = .leaveGroup st ca := by
    rw [moveOf_eq, asked]
    rfl
  have slots : (c.afterMembership a.frame true).1.slots = s.slots :=
    (membershipStep_sameButRoster (c.afterTable a.frame) a.frame true).slots.trans counted.slots
  have told := afterMembership_events c a.frame true
  rw [news, show c.twinOf a.frame true = [] by simp [State.twinOf, State.isForeign]] at told
  have counters := afterMembership_counters c a.frame true
  rw [fresh, if_neg Bool.false_ne_true] at counters
  rw [applyFrame_of_leaveGroup true none move kind]
  generalize (c.afterMembership a.frame true).1 = m at *
  generalize (if st = .detached ∧ ca = .left then EventKind.freed else .lost) = k
  refine ⟨congrArg (·.mem.state) (m.putOut_frame ..), m.putOut_outOfGroup .., ?_, ?_⟩
  · rw [State.putOut_counters, counters]
    exact counted.taken
  · rw [State.putOut_events, slotEnds_congr slots]
    exact State.eventsWith_congr _ (told.trans counted.events)

/-- R92: the own JOIN, accepted. -/
theorem ownJoins {c : State} {d : Half} (counted : s.OwnCounted c) (body : a.frame.body = .join d)
    (accepted : s.roster.digest = some d) (inStep : s.order.step = .inStep) (own : s.mem.number = some a.frame.sender)
    (free : ∀ k : Tag, (s.slots.slots[k]).state = .free) :
    let t := c.applyFrame true true none a.frame
    t.mem.state = .member ∧ t.mem.pendingJoin = false ∧ t.order.step = .inStep ∧ t.order.expected = a.frame.seq + 1 ∧
      t.table = (s.table.apply s.cfg s.roster.isMember a.frame).1 ∧
      t.roster = (s.roster.recordTaken a.frame.sender a.frame.seq).add a.frame.sender a.frame.seq ∧
      t.pres.beat = .running s.cfg.beatInterval ∧
      (∀ n : StationNo, t.pres.absence[n] =
        if s.roster.isMember n = true ∧ n ≠ a.frame.sender then .running s.cfg.absenceTime else .stopped) ∧
      t.port.counters[0] = satInc s.port.counters[0] ∧
      t.port.events = s.eventsWith [stateEvent .member .joined (some a.frame.seq)] := by
  have isMe : c.isMe a.frame.sender = true := decide_eq_true (counted.number.trans own)
  have digest : c.roster.digest = some d := counted.roster ▸ accepted
  obtain ⟨roster, -⟩ := afterMembership_of_join true body digest
  have asked : c.moveAsked a.frame true = .becomeMember := by
    simp only [State.moveAsked, body, isMe, digest, if_true]
  have move : c.moveOf a.frame true = .becomeMember := by
    rw [moveOf_eq, asked, Roster.dissolvedBy_of_member (n := a.frame.sender) _ (.inl (by simp [body, Body.kind]))]
    · rfl
    · rw [roster]
      simp
  have same := membershipStep_sameButRoster (c.afterTable a.frame) a.frame true
  have told := afterMembership_events c a.frame true
  rw [show c.newsOf a.frame = [] by simp only [State.newsOf, body, isMe, if_true],
    show c.twinOf a.frame true = [] by simp [State.twinOf, State.isForeign]] at told
  have counters := afterMembership_counters c a.frame true
  rw [show c.stale a.frame = false by simp only [State.stale, body], if_neg Bool.false_ne_true] at counters
  have kept : (c.afterMembership a.frame true).1.slots = s.slots ∧
      (c.afterMembership a.frame true).1.order.step = .inStep ∧
      (c.afterMembership a.frame true).1.order.expected = a.frame.seq + 1 ∧
      (c.afterMembership a.frame true).1.table = (s.table.apply s.cfg s.roster.isMember a.frame).1 ∧
      (c.afterMembership a.frame true).1.cfg = s.cfg ∧ (c.afterMembership a.frame true).1.mem.number = some a.frame.sender := by
    rw [← counted.table, ← counted.cfg, ← counted.roster]
    exact ⟨same.slots.trans counted.slots, (congrArg (·.step) same.order).trans (counted.step.trans inStep),
      congrArg (·.expected) same.order, same.table, same.cfg, (congrArg (·.number) same.mem).trans (counted.number.trans own)⟩
  obtain ⟨slots, step, expected, table, cfg, number⟩ := kept
  have settled : c.afterSlots a.frame true none =
      (((c.afterMembership a.frame true).1).makeMove .becomeMember a.frame.seq).reload true := by
    rw [State.afterSlots, State.afterMove, move]
    exact settleReport_of_free (by rw [reload_frame]; exact slots ▸ free) true _
  have applied : c.applyFrame true true none a.frame =
      (((c.afterMembership a.frame true).1).makeMove .becomeMember a.frame.seq).reload true := by
    rw [applyFrame_eq, if_pos rfl, settled, lastStep_of_tabled _ _ _ _ (.inl (by simp [body, Body.kind]))]
  rw [applied]
  generalize (c.afterMembership a.frame true).1 = m at *
  refine ⟨rfl, rfl, step, expected, table, roster.trans (by rw [counted.roster]), ?_, fun n => ?_, ?_, ?_⟩
  · simp [State.reload, Presence.ownFrameTaken, State.makeMove, State.enterMember, State.emit, step, cfg]
  · have listed : m.roster.isMember n = (decide (n = a.frame.sender) || s.roster.isMember n) := by
      rw [roster, Roster.isMember_add, Roster.isMember_recordTaken, counted.roster]
    have watched : ((m.makeMove .becomeMember a.frame.seq).reload true).pres.absence =
        (m.pres.watchMembers m.roster m.mem.number m.cfg.absenceTime).absence := rfl
    rw [watched, number, cfg]
    simp only [Presence.watchMembers, Fin.getElem_fin, Vector.getElem_ofFn, listed]
    by_cases here : n = a.frame.sender
    · simp [here]
    · simp [here, Ne.symm here]
  · have told : ((m.makeMove .becomeMember a.frame.seq).reload true).port.counters = c.port.counters :=
      (Port.append_counters ..).trans counters
    rw [told]
    exact counted.taken
  · exact Port.eventsWith_after (s := s) (told.trans (State.eventsWith_congr _ counted.events))
      [stateEvent .member .joined (some a.frame.seq)]

end Own

/-- Settles O35. -/
theorem membershipFramesMoveTheRoster : Obligations.MembershipFramesMoveTheRoster := by
  refine ⟨fun s f others reads calm inStep => ?_, fun s f others reads calm inStep peer => ?_,
    fun s f others other reads calm inStep own remains apart => ?_, fun s a levels me whole inStep number sender => ?_⟩
  · intro member report ownGrants othersRemain recorded
    have native (peer : s.mem.number ≠ some f.sender) : s.isMe f.sender = false := decide_eq_false peer
    refine ⟨fun d body peer accepted => ?_, fun d body peer refused remain => ?_, fun body peer remain => ?_,
      fun target body peer stale some_ => ?_, fun x other body listed apart remains third => ⟨fun notMe => ?_,
      fun me state => ?_, fun me state => ?_, fun me state free => ?_⟩⟩
    · obtain ⟨t, next, expected, members, digest, mem, out, gone, timer, settled⟩ :=
        peerJoins reads calm inStep (native peer) body accepted
      refine ⟨t, next, expected, members, digest, mem, out, gone, timer, fun quiet => ?_⟩
      rw [newsOf_join_peer body (native peer), if_pos accepted] at settled
      exact settled quiet
    · obtain ⟨t, next, expected, members, digest, mem, out, gone, settled⟩ :=
        peerDeparts (.inr ⟨d, body, refused⟩) reads calm inStep (native peer) remain
      refine ⟨t, next, expected, members, digest, mem, out, gone, fun quiet => ?_⟩
      rw [newsOf_join_peer body (native peer), if_neg refused] at settled
      exact settled quiet
    · have departs : s.departs f := .inl body
      obtain ⟨t, next, expected, members, digest, mem, out, gone, settled⟩ :=
        peerDeparts departs reads calm inStep (native peer) remain
      rw [newsOf_leave_peer body (native peer)] at settled
      refine ⟨t, next, expected, members, digest, mem, fun absent => ⟨out absent, ?_⟩, fun here => ⟨(gone here).1, (gone here).2,
        fun quiet => ?_⟩⟩
      · have absent : s.roster.isMember f.sender = false := absent
        have quiet := settled (by rw [departs.report, absent]; exact nofun)
        rw [absent] at quiet
        exact quiet
      · have told := settled quiet
        rw [show s.roster.isMember f.sender = true from here] at told
        exact told
    · obtain ⟨t, next, kept, table, roster, counter, slots, events, absence⟩ := heardStale reads calm inStep body stale some_
      rw [twinOf_peer (native peer)] at events
      refine ⟨t, next, congrArg (·.expected) kept.order, table, fun n => ?_, ?_, counter, events, slots, kept.mem, absence⟩
      · rw [roster]
        exact Roster.recordTaken_members ..
      · rw [roster]
        exact Roster.recordTaken_digest ..
    · have isMe : s.isMe x = false := decide_eq_false notMe
      obtain ⟨t, next, kept, roster, records, absence, news⟩ :=
        heardEvicts reads calm inStep body listed apart remains third (by rw [isMe]; rfl)
      refine ⟨t, next, congrArg (·.expected) kept.order, ?_, fun n other => ?_, records, absence, kept.mem, fun peer quiet => ?_⟩
      · rw [roster]
        simp
      · rw [roster]
        simp [other]
      · have elsewhere := heardStay_of_elsewhere (s := s) (f := f)
          (fun r mem => by rw [(evicted_members body listed apart).2.2.2 r mem]; exact notMe)
          (fun g mem mine => quiet ⟨g, mem, mine⟩)
        rw [news, twinOf_peer (native peer)] at elsewhere
        exact ⟨kept.slots.trans elsewhere.1, kept.events.trans elsewhere.2⟩
    · have isMe : s.isMe x = true := decide_eq_true me
      have peer : s.isMe f.sender = false := decide_eq_false fun same => apart (Option.some.inj (me.symm.trans same))
      obtain ⟨asked, news⟩ := moveAsked_of_evict body listed apart
      obtain ⟨members, _, records, _⟩ := evicted_members body listed apart
      rw [isMe, state] at asked news
      obtain ⟨t, next, expected, step, state, pending, table, roster, beat, beatPending, serve, serveList, slots, lines, _,
        events⟩ := heardLosesPlace reads calm inStep asked (n := other) (by rw [members, remains]; simpa using third)
          (by simp [body, Body.kind])
      rw [news, twinOf_peer peer] at events
      refine ⟨t, next, expected, step, state, pending, ?_, ?_, beat, beatPending, serve, serveList, slots, lines, events⟩
      · rw [roster, members]
        simp
      · rw [table]
        exact records
    · have isMe : s.isMe x = true := decide_eq_true me
      have peer : s.isMe f.sender = false := decide_eq_false fun same => apart (Option.some.inj (me.symm.trans same))
      obtain ⟨asked, news⟩ := moveAsked_of_evict body listed apart
      rw [isMe, state] at asked news
      obtain ⟨t, next, state, out, _, _, events⟩ :=
        endsOutside_of_leaveGroup reads calm inStep asked nofun nofun (by simp [body, Body.kind])
      rw [news, twinOf_peer peer] at events
      exact ⟨t, next, state, out, events⟩
    · have peer : s.isMe f.sender = false := decide_eq_false fun same => apart (Option.some.inj (me.symm.trans same))
      obtain ⟨t, next, kept, roster, records, _, news⟩ :=
        heardEvicts reads calm inStep body listed apart remains third (by rw [state]; exact ite_self _)
      have settled := heardStay_of_free (f := f) free
      rw [news, twinOf_peer peer] at settled
      refine ⟨t, next, congrArg (·.expected) kept.order, (congrArg (·.step) kept.order).trans inStep, kept.mem, ?_, records,
        kept.slots.trans settled.1, kept.events.trans settled.2⟩
      rw [roster]
      simp
  · intro only peer_ ends
    have native : s.isMe f.sender = false := decide_eq_false peer
    have nobody (departs : s.departs f) (alone : only f.sender) : s.leavesNobody f := by
      refine .inl fun n => ?_
      rw [departs.isMember, Bool.and_eq_false_iff, decide_eq_false_iff_not, not_not]
      by_cases same : n = f.sender
      · exact .inl same
      · exact .inr (Bool.eq_false_iff.2 fun here => same ((alone n).1 here))
    have departing (departs : s.departs f) (alone : only f.sender) : ends .listening .dissolved (s.newsOf f) := by
      have outside := endsOutside_of_nobody reads calm inStep (nobody departs alone) departs.kind.1
        (by rw [departs.stays native]; exact nofun)
      rw [twinOf_peer native, List.append_nil] at outside
      exact outside
    refine ⟨fun body alone => ?_, fun d body refused alone => ?_, fun x body apart alone => ?_, fun body alone => ?_⟩
    · have outside := departing (.inl body) alone
      rw [newsOf_leave_peer body native, (alone f.sender).2 rfl] at outside
      exact outside
    · have outside := departing (.inr ⟨d, body, refused⟩) alone
      rw [newsOf_join_peer body native, if_neg refused] at outside
      exact outside
    · have listed : s.roster.isMember x = true := (alone x).2 rfl
      have nobody := leavesNobody_of_evict body listed apart alone
      have kind : f.body.kind ≠ .beat ∧ f.body.kind ≠ .syncreq := by simp [body, Body.kind]
      obtain ⟨asked, news⟩ := moveAsked_of_evict body listed apart
      refine ⟨fun stays => ?_, fun me state => ?_, fun me state => ?_⟩
      · have stay : (if s.isMe x then ownLoss s.mem.state .evicted else Move.stay) = .stay := by
          obtain notMe | joining := stays
          · rw [show s.isMe x = false from decide_eq_false notMe]
            rfl
          · rw [joining]
            exact ite_self _
        have outside := endsOutside_of_nobody reads calm inStep nobody kind.1 (by rw [asked, stay]; exact nofun)
        have told : s.newsOf f = [peerEvent .peerOut x (some .evicted) f.seq] := by
          rw [news, if_neg]
          rw [Bool.and_eq_true, decide_eq_true_eq]
          rintro ⟨mine, loses⟩
          rw [if_pos mine] at stay
          exact loses stay
        rw [told, twinOf_peer native] at outside
        exact outside
      · rw [show s.isMe x = true from decide_eq_true me, state] at asked news
        have outside := endsOutside_of_nobody reads calm inStep nobody kind.1 (by rw [asked]; exact nofun)
        rw [news, twinOf_peer native] at outside
        exact outside
      · rw [show s.isMe x = true from decide_eq_true me, state] at asked news
        have outside := endsOutside_of_leaveGroup reads calm inStep asked nofun nofun kind
        rw [news, twinOf_peer native] at outside
        exact outside
    · have plain : f.body.kind ≠ .join ∧ f.body.kind ≠ .leave ∧ f.body.kind ≠ .evict := by simp [body, Body.kind]
      obtain ⟨roster, _, asked, news, _⟩ := afterMembership_of_plain (s.countsFrom f.sender) f false plain
      have members (n : StationNo) : (s.heardMembers f).roster.isMember n = s.roster.isMember n :=
        (congrArg (·.isMember n) roster).trans (Roster.isMember_recordTaken ..)
      have outside := endsOutside_of_nobody reads calm inStep
        (.inr ⟨by simp [body, Body.kind], fun n here => alone n (by rw [← members]; exact here)⟩) (by simp [body, Body.kind])
        (by rw [show s.moveAsked f false = .stay from asked]; exact nofun)
      rw [twinOf_peer native, show s.newsOf f = [] from news] at outside
      exact outside
  · intro me report elsewhere twin told followed
    have isMe : s.isMe f.sender = true := decide_eq_true own
    have follows {t : State} (kept : s.KeptTaken f t) : followed t :=
      ⟨congrArg (·.expected) kept.order, (congrArg (·.step) kept.order).trans inStep, kept.table, kept.sender⟩
    have quiet (silent : elsewhere) := heardStay_of_elsewhere (s := s) (f := f)
      (fun r mem mine => silent.2 r mem (Option.some.inj (mine.symm.trans own)))
      (fun g mem mine => silent.1 g mem (Option.some.inj (mine.symm.trans own)))
    have asksOnLeave (body : f.body = .leave) : s.moveAsked f false =
        if s.roster.isMember f.sender then ownLoss s.mem.state .removed else .stay := by
      simp only [State.moveAsked, body, isMe, if_true, Bool.false_eq_true, if_false]
    have silent (body : f.body = .leave) : s.newsOf f = [] := by simp only [State.newsOf, body, isMe, if_true]
    have left (body : f.body = .leave) : (s.heardMembers f).roster.isMember other = true := by
      rw [State.departs.isMember (.inl body), remains]
      simpa using apart
    refine ⟨fun d body => ?_, fun kind => ?_, fun target body stale => ?_, fun x body listed other some_ => ?_,
      fun body => ⟨fun absent => ?_, fun listed state => ?_, fun listed state => ?_, fun listed state free => ?_⟩⟩
    · have asked : s.moveAsked f false = .leaveGroup .isolated .duplicate := by
        simp only [State.moveAsked, body, isMe, if_true, Bool.false_eq_true, if_false]
      obtain ⟨t, next, state, out, listen, _, events⟩ :=
        endsOutside_of_leaveGroup reads calm inStep asked nofun nofun (by simp [body, Body.kind])
      rw [show s.newsOf f = [] by simp only [State.newsOf, body, isMe, if_true], twinOf_own isMe] at events
      exact ⟨t, next, state, out, listen, events⟩
    · obtain ⟨t, next, taken, settled⟩ := twinPlain reads calm inStep own remains apart kind
      exact ⟨t, next, ⟨taken.expected, taken.step, taken.table, taken.sender⟩, taken.mem, taken.cu,
        fun silent => settled (quiet silent)⟩
    · obtain ⟨t, next, kept, _, _, counter, slots, events, _⟩ :=
        heardStale reads calm inStep body stale ⟨other, remains⟩
      rw [twinOf_own isMe] at events
      exact ⟨t, next, follows kept, kept.mem, slots, counter, events⟩
    · obtain ⟨n, left, third⟩ := some_
      have notMe : s.isMe x = false := decide_eq_false fun mine => other (Option.some.inj (mine.symm.trans own))
      obtain ⟨t, next, kept, roster, _, _, news⟩ :=
        heardEvicts reads calm inStep body listed other left third (by rw [notMe]; rfl)
      refine ⟨t, next, follows kept, kept.mem, ?_, fun silent => ?_⟩
      · rw [roster]
        simp
      · have settled := quiet silent
        rw [news, twinOf_own isMe] at settled
        exact ⟨kept.slots.trans settled.1, kept.events.trans settled.2⟩
    · have absent : s.roster.isMember f.sender = false := absent
      obtain ⟨t, next, kept, roster, settled⟩ := twinLeaves reads calm inStep own remains apart body (by rw [absent]; rfl)
      have still : s.table.apply s.cfg s.roster.isMember f = (s.table, {}) := by
        rw [State.departs.report (.inl body), absent]
        rfl
      obtain ⟨slots, events⟩ := settled (heardStay_of_elsewhere (by rw [still]; exact nofun) (by rw [still]; exact nofun))
      refine ⟨t, next, follows kept, kept.mem, roster.trans (by rw [absent]; rfl), slots, events⟩
    · have asked : s.moveAsked f false = .loseMembership .removed := by
        rw [asksOnLeave body, show s.roster.isMember f.sender = true from listed, state]
        rfl
      obtain ⟨t, next, expected, step, state, pending, table, roster, _, _, serve, serveList, slots, _, counter, events⟩ :=
        heardLosesPlace reads calm inStep asked (n := other) (left body) (by simp [body, Body.kind])
      rw [silent body, twinOf_own isMe] at events
      refine ⟨t, next, ⟨expected, step, table, counter⟩, state, pending, ?_, serve, serveList, slots, events⟩
      rw [roster, State.departs.isMember (.inl body)]
      simp [me]
    · have asked : s.moveAsked f false = .leaveGroup .detached .removed := by
        rw [asksOnLeave body, show s.roster.isMember f.sender = true from listed, state]
        rfl
      obtain ⟨t, next, state, out, _, _, events⟩ :=
        endsOutside_of_leaveGroup reads calm inStep asked nofun nofun (by simp [body, Body.kind])
      rw [silent body, twinOf_own isMe] at events
      exact ⟨t, next, state, out, events⟩
    · obtain ⟨t, next, kept, roster, settled⟩ :=
        twinLeaves reads calm inStep own remains apart body (by rw [state]; exact ite_self _)
      obtain ⟨slots, events⟩ := settled (heardStay_of_free free)
      refine ⟨t, next, follows kept, kept.mem, ?_, slots, events⟩
      rw [roster, departed_isMember]
      simp [me]
  · intro told
    have own : s.mem.number = some a.frame.sender := sender ▸ number
    refine ⟨fun source body state => ?_, fun d source body state => ⟨fun accepted free => ?_, fun refused => ?_⟩⟩
    · obtain ⟨c, next, counted⟩ := ownMember_counted whole inStep (.inl source) (by simp [body, Body.kind])
      have isMe : c.isMe a.frame.sender = true := decide_eq_true (counted.number.trans own)
      obtain ⟨state, out, taken, events⟩ := ownLeavesGroup (a := a) counted (st := .detached) (ca := .left)
        (by simp only [State.moveAsked, body, isMe, if_true]) (by simp only [State.newsOf, body, isMe, if_true])
        (by simp only [State.stale, body]) (by simp [body, Body.kind])
      exact ⟨_, next, state, out, taken, events⟩
    · obtain ⟨c, next, counted⟩ := ownMember_counted whole inStep (.inr source) (by simp [body, Body.kind])
      obtain ⟨state, pending, step, expected, table, roster, beat, absence, taken, events⟩ :=
        ownJoins counted body accepted inStep own free
      rw [sender] at roster absence
      refine ⟨_, next, state, pending, step, expected, fun n => ?_, fun rec mem mine => ?_, beat, absence, taken, events⟩
      · rw [roster, Roster.add_members, Roster.recordTaken_members]
        split <;> rfl
      · rw [Bool.eq_false_iff]
        intro listed
        rw [table, apply_of_departure (.inr ⟨d, body⟩), sender, if_pos listed] at mem
        exact owner_of_removed mem mine
    · obtain ⟨c, next, counted⟩ := ownMember_counted whole inStep (.inr source) (by simp [body, Body.kind])
      have isMe : c.isMe a.frame.sender = true := decide_eq_true (counted.number.trans own)
      have refused : ¬ c.roster.digest = some d := counted.roster ▸ refused
      obtain ⟨state, out, taken, events⟩ := ownLeavesGroup (a := a) counted (st := .refused) (ca := .config)
        (by simp only [State.moveAsked, body, isMe, refused, if_true, if_false])
        (by simp only [State.newsOf, body, isMe, if_true])
        (by simp only [State.stale, body]) (by simp [body, Body.kind])
      exact ⟨_, next, state, out, taken, events⟩

end Sys2Proof.Machine

/-! # The candidate of an install, record part by record part (R25, R129) -/

namespace Sys2Proof.Machine

/-- R25, R199: the record carries the fields of the part. -/
def RecordPart.carries (p : RecordPart) (r : Record) : Prop :=
  r.owner.val = p.owner.toNat ∧ r.tag.val = p.tag.toNat ∧
    r.zones = (if p.zonesPresent = true then some { lo := p.lo.toNat, hi := p.hi.toNat } else none) ∧
    r.units = p.units.toNat ∧ (r.state = .held ↔ p.held = true) ∧ r.admittedAt = p.admittedAt ∧
    r.grantedAt = if p.grantedPresent = true then some p.grantedAt else none

section Parts

variable {cfg : Cfg} {members : Half}

theorem recordOfPart_carries {p : RecordPart} {r : Record} (h : recordOfPart cfg members p = some r) : p.carries r := by
  unfold recordOfPart at h
  split at h
  · next passes =>
    cases h
    refine ⟨Nat.mod_eq_of_lt passes.1, Nat.mod_eq_of_lt passes.2.2.1, rfl, rfl, ?_, rfl, rfl⟩
    cases p.held <;> simp
  · cases h

theorem recordOfPart_of_carries {p : RecordPart} {r : Record} (ok : r.ok cfg) (listed : members.toNat.testBit r.owner.val = true)
    (carries : p.carries r) : recordOfPart cfg members p = some r := by
  obtain ⟨range, fits, some_, granted⟩ := ok
  obtain ⟨owner, tag, zones, units, state, admitted, grantedAt⟩ := carries
  have flags : p.grantedPresent = p.held := by
    rw [state, grantedAt] at granted
    cases present : p.grantedPresent <;> cases held : p.held <;> simp_all
  rw [recordOfPart, if_pos]
  · obtain ⟨o, tg, z, u, st, ad, gr⟩ := r
    dsimp only at owner tag zones units state admitted grantedAt
    have stateOf : (if p.held = true then ClaimState.held else .waiting) = st := by
      cases st <;> cases held : p.held <;> simp_all
    rw [stateOf, ← zones, ← units, ← admitted, ← grantedAt]
    congr
    · exact Fin.ext ((Nat.mod_eq_of_lt (owner ▸ o.isLt)).trans owner.symm)
    · exact Fin.ext ((Nat.mod_eq_of_lt (tag ▸ tg.isLt)).trans tag.symm)
  · refine ⟨owner ▸ r.owner.isLt, owner ▸ listed, tag ▸ r.tag.isLt, fun present => ?_, units ▸ fits, ?_, flags⟩
    · rw [zones, if_pos present] at range
      simpa using range
    · rw [zones] at some_
      cases present : p.zonesPresent
      · rw [present] at some_
        exact .inr (by simpa [units] using some_)
      · exact .inl rfl

theorem recordsOfParts_iff {parts : List RecordPart} {rs : List Record} :
    recordsOfParts cfg members parts = some rs ↔
      List.Forall₂ (fun p r => recordOfPart cfg members p = some r) parts rs := by
  induction parts generalizing rs with
  | nil => simp [recordsOfParts, eq_comm]
  | cons p rest ih =>
    rw [recordsOfParts, List.forall₂_cons_left_iff]
    constructor
    · intro h
      split at h
      · next r rs' hr hrest =>
        cases h
        exact ⟨r, rs', hr, ih.1 hrest, rfl⟩
      · cases h
    · rintro ⟨r, rs', hr, hrest, rfl⟩
      rw [hr, ih.2 hrest]

theorem recordsOfParts_iff_carries {parts : List RecordPart} {rs : List Record} :
    recordsOfParts cfg members parts = some rs ↔
      (∀ r ∈ rs, r.ok cfg ∧ members.toNat.testBit r.owner.val = true) ∧ rs.length = parts.length ∧
        ∀ (i : Nat) (p : RecordPart) (r : Record), parts[i]? = some p → rs[i]? = some r → p.carries r := by
  constructor
  · intro h
    refine ⟨recordsOfParts_ok h, (recordsOfParts_iff.1 h).length_eq.symm, fun i p r hp hr => ?_⟩
    obtain ⟨_, each⟩ := List.forall₂_iff_get.1 (recordsOfParts_iff.1 h)
    obtain ⟨near, rfl⟩ := List.getElem?_eq_some_iff.1 hp
    obtain ⟨near', rfl⟩ := List.getElem?_eq_some_iff.1 hr
    exact recordOfPart_carries (each i near near')
  · rintro ⟨ok, length, carries⟩
    refine recordsOfParts_iff.2 (List.forall₂_iff_get.2 ⟨length.symm, fun i near near' => ?_⟩)
    obtain ⟨here, listed⟩ := ok _ (List.get_mem rs ⟨i, near'⟩)
    exact recordOfPart_of_carries here listed
      (carries i _ _ (List.getElem?_eq_getElem near) (List.getElem?_eq_getElem near'))

end Parts

/-- R4 to R6: a table in order is the table of its records. -/
theorem Table.ok.ofRecords {cfg : Cfg} {t : Table} (ok : t.ok cfg) : Table.ofRecords t.records = t := by
  obtain ⟨_, _, _, _, _, zoneMap, inUse, _⟩ := ok
  obtain ⟨rs, map, sum⟩ := t
  dsimp only at zoneMap inUse
  have same : Vector.ofFn (fun z : Fin 32 => holderOf rs z.val) = map := Vector.ext fun i near => by
    simpa using (zoneMap ⟨i, near⟩).symm
  rw [Table.ofRecords, same, inUse]

/-- R25, R129: when a received snapshot has a candidate, and which. -/
theorem candidate_iff (cfg : Cfg) (sn : Snapshot) (t : Table) : candidate cfg sn = some t ↔
    t.ok cfg ∧ (∀ r ∈ t.records, sn.members.toNat.testBit r.owner.val = true) ∧ sn.members ≠ 0 ∧
      t.inUse = sn.inUse.toNat ∧ fingerprintOf (some sn.digest) sn.members t.inUse t.records = sn.fingerprint ∧
      t.records.length = sn.records.length ∧
      ∀ (i : Nat) (p : RecordPart) (r : Record), sn.records[i]? = some p → t.records[i]? = some r → p.carries r := by
  constructor
  · intro h
    obtain ⟨ok, listed⟩ := candidate_ok h
    unfold candidate at h
    split at h
    · cases h
    · next rs parts =>
      split at h
      · next checks =>
        obtain ⟨_, _, _, _, _, inUse, fingerprint, some_⟩ := checks
        cases h
        obtain ⟨_, length, carries⟩ := recordsOfParts_iff_carries.1 parts
        exact ⟨ok, listed, some_, inUse, fingerprint, length, carries⟩
      · cases h
  · rintro ⟨ok, listed, some_, inUse, fingerprint, length, carries⟩
    have same := ok.ofRecords
    obtain ⟨limit, distinct, owners, each, disjoint, _, sum, capacity⟩ := ok
    have parts : recordsOfParts cfg sn.members sn.records = some t.records :=
      recordsOfParts_iff_carries.2 ⟨fun r mem => ⟨each r mem, listed r mem⟩, length, carries⟩
    simp only [candidate, parts]
    rw [if_pos ⟨limit, distinct, owners, disjoint, sum ▸ capacity, sum ▸ inUse, sum ▸ fingerprint, some_⟩, same]

end Sys2Proof.Machine

/-! # A SNAP heard: ignored, stored, failed or refused (R83, R105, R126, R127, R129, R134, R135) -/

namespace Sys2Proof.Machine

/-- R58: the line interface once a SNAP has ended. -/
abbrev LineIf.snapEnded (l : LineIf) : LineIf := { l with rx := none, awaiting := .snapPart, slot := [] }

/-- R83, R105: a SNAP restarts the listen timer and the absence timer of its sender. -/
def State.hearsSnapOf (u : State) (x : StationNo) : State := u.restartListen.heardFrom x

theorem State.hearsSnapOf_eq (u : State) (x : StationNo) :
    u.hearsSnapOf x = { u with mem := (u.hearsSnapOf x).mem, pres := (u.hearsSnapOf x).pres } := by
  unfold State.hearsSnapOf
  rw [State.heardFrom_eq, State.restartListen_eq]

theorem State.hearsSnapOf_mem (u : State) (x : StationNo) : (u.hearsSnapOf x).mem =
    { u.mem with listen := if u.mem.listen = .stopped then .stopped else .running u.cfg.absenceTime } := by
  unfold State.hearsSnapOf
  rw [State.heardFrom_eq, State.restartListen_eq]
  dsimp only
  split
  · next stopped => rw [← stopped]
  · rfl

theorem State.hearsSnapOf_absence (u : State) (x n : StationNo) : (u.hearsSnapOf x).pres.absence[n] =
    if x = n ∧ u.roster.isMember n = true ∧ u.mem.number ≠ some n ∧ u.pres.absence[n] ≠ .stopped then
      .running u.cfg.absenceTime else u.pres.absence[n] := by
  have number : u.restartListen.mem.number = u.mem.number := by
    rw [State.restartListen_eq]
    dsimp only
    split <;> rfl
  unfold State.hearsSnapOf
  rw [State.heardFrom_absence, number, State.restartListen_eq]

theorem State.hearsSnapOf_beat (u : State) (x : StationNo) :
    (u.hearsSnapOf x).pres.beat = u.pres.beat ∧ (u.hearsSnapOf x).pres.beatPending = u.pres.beatPending := by
  have beat := u.restartListen.heardFrom_beat x
  unfold State.hearsSnapOf
  rw [State.restartListen_eq] at beat ⊢
  exact beat

/-- R58, R83, R105, R126: what a SNAP leaves that is not acted on but for the catch-up unit. -/
def State.snapKept (s : State) (x me : StationNo) (t : State) : Prop :=
  t.order = s.order ∧ t.table = s.table ∧ t.roster = s.roster ∧ t.slots = s.slots ∧
    t.mem = { s.mem with listen := if s.mem.listen = .stopped then .stopped else .running s.cfg.absenceTime } ∧
    t.pres.beat = s.pres.beat ∧ t.pres.beatPending = s.pres.beatPending ∧
    (∀ n : StationNo, t.pres.absence[n] =
      if n = x ∧ s.roster.isMember n = true ∧ n ≠ me ∧ s.pres.absence[n] ≠ .stopped then .running s.cfg.absenceTime
      else s.pres.absence[n]) ∧ t.cfg = s.cfg ∧ t.line = s.line.snapEnded

section Heard

variable {s : State} {f : Frame} {read levels : List Bool} {me : StationNo} (hears : s.hears read levels (.good f))
  (number : s.mem.number = some me)

include hears in
theorem exec_frameEnd_of_snap (snap : f.body.kind = .snap) :
    exec (.frameEnd levels) s =
      .next ((State.hearSnap { s with line := s.line.snapEnded } f).hearsSnapOf f.sender) := by
  have unsequenced : f.body.sequenced = false := by simp [Body.sequenced, snap]
  rw [exec_frameEnd_of_hears hears]
  unfold State.frameEnds
  simp only [unsequenced, Bool.not_false, if_true]
  rfl

include number

theorem snapKept_of_catchUp (c : CatchUp) (p : Port) (x : StationNo) :
    s.snapKept x me (State.hearsSnapOf { s with line := s.line.snapEnded, cu := c, port := p } x) := by
  generalize eq : ({ s with line := s.line.snapEnded, cu := c, port := p } : State) = u
  have frame := u.hearsSnapOf_eq x
  have mem := u.hearsSnapOf_mem x
  have beat := u.hearsSnapOf_beat x
  have absence := u.hearsSnapOf_absence x
  generalize u.hearsSnapOf x = t at *
  subst eq
  refine ⟨congrArg (·.order) frame, congrArg (·.table) frame, congrArg (·.roster) frame, congrArg (·.slots) frame, mem,
    beat.1, beat.2, fun n => ?_, congrArg (·.cfg) frame, congrArg (·.line) frame⟩
  rw [absence n]
  congr 1
  rw [number, ne_eq, Option.some.injEq, eq_comm (a := x), eq_comm (a := me)]

theorem hearSnap_of_ignored {target : Byte} {count : Byte} {d m u fp : Half} {lt : List Seq}
    (body : f.body = .snapHeader target count d m u fp lt)
    (ignored : target.toNat ≠ me.val ∨ ¬ (s.cu.phase = .awaiting ∨ s.cu.phase = .receiving)) : s.hearSnap f = s := by
  simp only [State.hearSnap, body, number, decide_eq_true_eq]
  split
  · next mine =>
    unfold State.snapHeader
    cases phase : s.cu.phase <;> simp_all
  · rfl

theorem hearSnap_of_header {target : Byte} {count : Byte} {d m u fp : Half} {lt : List Seq}
    (body : f.body = .snapHeader target count d m u fp lt) (mine : target.toNat = me.val)
    (receiving : s.cu.phase = .awaiting ∨ s.cu.phase = .receiving) :
    s.hearSnap f = s.storeSnapshot
      { sender := f.sender, base := f.seq, count := count.toNat, digest := d, members := m, inUse := u
        fingerprint := fp, lastTaken := lt, records := [], next := 1 } := by
  simp only [State.hearSnap, body, number, mine, decide_true, if_true, State.snapHeader]
  obtain phase | phase := receiving <;> simp only [phase]

theorem hearSnap_of_record {target index count : Byte} {p : RecordPart} (body : f.body = .snapRecord target index count p) :
    s.hearSnap f = if target.toNat = me.val then s.snapRecord f.sender f.seq index count p else s := by
  simp only [State.hearSnap, body, number, decide_eq_true_eq]

end Heard

section Record

variable {s : State} {x : StationNo} {q : Seq} {index count : Byte} {p : RecordPart}

/-- R127: no part is waited for. -/
theorem snapRecord_of_deaf (deaf : ¬ (s.cu.phase = .awaiting ∨ s.cu.phase = .receiving)) :
    s.snapRecord x q index count p = s := by
  unfold State.snapRecord
  cases phase : s.cu.phase with
  | idle => rfl
  | requesting => rfl
  | awaiting => exact absurd (.inl phase) deaf
  | receiving => exact absurd (.inr phase) deaf

theorem snapRecord_of_awaiting (awaiting : s.cu.phase = .awaiting) :
    s.snapRecord x q index count p = s.failAttempt .part := by
  simp only [State.snapRecord, awaiting]

theorem snapRecord_of_receiving {sn : Snapshot} (receives : s.cu.phase = .receiving) (kept : s.cu.snapshot = some sn) :
    s.snapRecord x q index count p =
      if sn.sender ≠ x then s
      else if index.toNat = sn.next ∧ count.toNat = sn.count ∧ q = sn.base then
        s.storeSnapshot { sn with records := sn.records ++ [p], next := sn.next + 1 }
      else s.failAttempt .part := by
  simp only [State.snapRecord, receives, kept]

end Record

end Sys2Proof.Machine

/-! # A complete snapshot that is not installed (R129, R130, R134, R135) -/

namespace Sys2Proof.Machine

/-- R126, R127: the snapshot as received, and the wait timer restarted. -/
def State.snapStored (s : State) (sn : Snapshot) : State :=
  { s with
    line := s.line.snapEnded
    cu := { s.cu with snapshot := some sn, phase := .receiving, wait := .running s.cfg.absenceTime } }

theorem storeSnapshot_eq (s : State) (sn : Snapshot) :
    State.storeSnapshot { s with line := s.line.snapEnded } sn =
      if sn.next = sn.count then (s.snapStored sn).attemptInstall sn else s.snapStored sn := rfl

/-- R134, R135: the failed attempt, by its number. -/
def State.snapFails (s : State) (x me : StationNo) (why : Cause) (t : State) : Prop :=
  t.port.counters[8] = satInc s.port.counters[8] ∧ t.port.counters[7] = s.port.counters[7] ∧
    (s.cu.attempts < 2 → s.snapKept x me t ∧
      t.cu = { s.cu with
        attempts := s.cu.attempts + 1, snapshot := none, vetoRun := 0, syncreqPending := true
        phase := .requesting, wait := .stopped } ∧
      t.port.events = s.eventsWith [{ kind := .catchupFail, count := some (s.cu.attempts + 1), cause := some (.cause why) }]) ∧
    (2 ≤ s.cu.attempts → t.mem.state = .isolated ∧ t.order.step = .off ∧ t.cu = CatchUp.idle ∧
      t.table = Table.empty ∧ t.roster = Roster.empty)

theorem State.hearsSnapOf_state (u : State) (x : StationNo) : (u.hearsSnapOf x).mem.state = u.mem.state := by
  rw [State.hearsSnapOf_mem]

section Fails

variable {s : State} {me : StationNo} (number : s.mem.number = some me)

include number

theorem snapFails_of_phase {phase : Phase} (heard : phase ≠ .requesting) (snapshot : Option Snapshot) (wait : Timer)
    (x : StationNo) (why : Cause) :
    s.snapFails x me why (State.hearsSnapOf (State.failAttempt
      { s with line := s.line.snapEnded, cu := { s.cu with snapshot := snapshot, phase := phase, wait := wait } } why) x) := by
  generalize eq : ({ s with line := s.line.snapEnded, cu := { s.cu with snapshot := snapshot, phase := phase, wait := wait } } :
    State) = v
  have counters (k : Fin 28) : ((v.failAttempt why).hearsSnapOf x).port.counters[k] =
      if k = 8 then satInc s.port.counters[k] else s.port.counters[k] := by
    have port := congrArg (·.port.counters) ((v.failAttempt why).hearsSnapOf_eq x)
    refine (congrArg (fun w : Vector Half 28 => w[k]) (port.trans (failAttempt_counters v why))).trans ?_
    rw [countFailure_counters, ← eq]
  refine ⟨counters 8, counters 7, fun more => ?_, fun third => ?_⟩
  · have attempts : v.cu.attempts = s.cu.attempts := by rw [← eq]
    have failed := failAttempt_of_more (s := v) (by rw [attempts]; exact more) why
    subst eq
    rw [if_neg fun both => heard both.1] at failed
    have kept := snapKept_of_catchUp number
      { s.cu with
        attempts := s.cu.attempts + 1, snapshot := none, vetoRun := 0, syncreqPending := true
        phase := .requesting, wait := .stopped }
      (State.countFailure
        { s with line := s.line.snapEnded, cu := { s.cu with snapshot := snapshot, phase := phase, wait := wait } } why).port x
    rw [failed]
    refine ⟨kept, ?_, ?_⟩
    · rw [State.hearsSnapOf_eq]
    · rw [State.hearsSnapOf_eq]
      rfl
  · have attempts : v.cu.attempts = s.cu.attempts := by rw [← eq]
    have failed := failAttempt_of_third (s := v) (by rw [attempts]; exact third) why
    rw [failed]
    have frame := (v.countFailure why).putOut_frame .isolated .catchup .catchup v.order.lastHeard none .lost
    generalize (v.countFailure why).putOut .isolated .catchup .catchup v.order.lastHeard none .lost = w at frame
    have heard := w.hearsSnapOf_eq x
    have state := w.hearsSnapOf_state x
    generalize w.hearsSnapOf x = t at *
    exact ⟨state.trans (congrArg (·.mem.state) frame), (congrArg (·.order.step) heard).trans (congrArg (·.order.step) frame),
      (congrArg (·.cu) heard).trans (congrArg (·.cu) frame), (congrArg (·.table) heard).trans (congrArg (·.table) frame),
      (congrArg (·.roster) heard).trans (congrArg (·.roster) frame)⟩

end Fails

/-! ### The run of the frames held back (R130) -/

theorem holdsRun_iff {q : List Held} {base : Seq} {n : Nat} :
    holdsRun q base n = true ↔ ∀ k, 1 ≤ k → k ≤ n → ∃ h ∈ q, h.frame.seq = base + BitVec.ofNat 16 k := by
  induction n with
  | zero => simp only [holdsRun, true_iff]; omega
  | succ n ih =>
    rw [holdsRun, Bool.and_eq_true, ih, List.any_eq_true]
    simp only [decide_eq_true_eq]
    constructor
    · rintro ⟨last, before⟩ k one near
      obtain rfl | less : k = n + 1 ∨ k ≤ n := by omega
      · exact last
      · exact before k one less
    · exact fun all => ⟨all (n + 1) (by omega) le_rfl, fun k one near => all k one (by omega)⟩

/-- R130: no frame is missing between the base and the last heard. -/
def runWhole (q : List Held) (base : Seq) (lastHeard : Option Seq) : Prop :=
  let ahead := ((lastHeard.getD base) - base).toNat
  ahead = 0 ∨ 32769 ≤ ahead ∨
    ahead ≤ 32767 ∧ ∀ k, 1 ≤ k → k ≤ ahead → ∃ h ∈ q, h.frame.seq = base + BitVec.ofNat 16 k

theorem runCheck_iff (q : List Held) (base : Seq) (lastHeard : Option Seq) :
    runCheck q base lastHeard = true ↔ runWhole q base lastHeard := by
  cases lastHeard with
  | none => simp [runCheck, runWhole]
  | some l =>
    have sub : (base - l).toNat = (65536 - (l - base).toNat) % 65536 := by
      rw [BitVec.toNat_sub, BitVec.toNat_sub]
      have := l.isLt
      have := base.isLt
      omega
    have bound := (l - base).isLt
    have same : l = base ↔ (l - base).toNat = 0 := by
      rw [← BitVec.toNat_inj, BitVec.toNat_sub]
      have := l.isLt
      have := base.isLt
      omega
    simp only [runCheck, runWhole, later, opposite, Option.getD_some, Bool.and_eq_true, decide_eq_true_eq, sub, same]
    generalize (l - base).toNat = ahead at *
    by_cases past : ahead = 0 ∨ 32769 ≤ ahead
    · rw [if_pos (by omega)]
      exact iff_of_true rfl (past.imp_right .inl)
    · rw [if_neg (by omega)]
      by_cases half : (65536 - ahead) % 65536 = 32768
      · rw [if_pos half]
        exact iff_of_false Bool.false_ne_true (by omega)
      · rw [if_neg half, holdsRun_iff]
        constructor
        · exact fun all => .inr (.inr ⟨by omega, all⟩)
        · rintro (none_ | far | ⟨_, all⟩)
          · omega
          · omega
          · exact all

/-! ### Another digest (R129) -/

theorem attemptInstall_refused {s : State} {sn : Snapshot} (differs : sn.digest ≠ s.mem.ownDigest) :
    (s.snapStored sn).attemptInstall sn =
      (s.snapStored sn).putOut .refused .config .config (some sn.base) (some sn.base) .lost := if_pos differs

theorem attemptInstall_gap {s : State} {sn : Snapshot} (same : sn.digest = s.mem.ownDigest)
    (gap : ¬ runWhole s.cu.holdBack sn.base s.order.lastHeard) :
    (s.snapStored sn).attemptInstall sn = (s.snapStored sn).failAttempt .gap := by
  have check : runCheck s.cu.holdBack sn.base s.order.lastHeard = false :=
    Bool.eq_false_iff.2 fun whole => gap ((runCheck_iff ..).1 whole)
  exact (if_neg fun differs => differs same).trans (if_pos (by
    rw [show runCheck (s.snapStored sn).cu.holdBack sn.base (s.snapStored sn).order.lastHeard = false from check]; rfl))

theorem attemptInstall_checked {s : State} {sn : Snapshot} (same : sn.digest = s.mem.ownDigest)
    (whole : runWhole s.cu.holdBack sn.base s.order.lastHeard) :
    (s.snapStored sn).attemptInstall sn = match candidate s.cfg sn with
      | none => (s.snapStored sn).failAttempt .check
      | some t => (s.snapStored sn).install sn t := by
  have check : runCheck s.cu.holdBack sn.base s.order.lastHeard = true := (runCheck_iff ..).2 whole
  exact (if_neg fun differs => differs same).trans (if_neg (by
    rw [show runCheck (s.snapStored sn).cu.holdBack sn.base (s.snapStored sn).order.lastHeard = true from check]; exact nofun))

end Sys2Proof.Machine

/-! # Re-validation at an install, row by row (R158) -/

namespace Sys2Proof.Machine

/-- R158: what the installed table says of a slot's record: its state, admitted-at and granted-at. -/
abbrev Standing : Type := Option (ClaimState × Seq × Option Seq)

def Record.standing (r : Record) : ClaimState × Seq × Option Seq := (r.state, r.admittedAt, r.grantedAt)

/-- R158: the slot and its events by the record of its tag. -/
def resyncRow (base : Seq) (k : Tag) (x : Slot) (record : Standing) : Slot × List Event :=
  match x.state, record with
  | .free, _ | .pending, _ | .cancelling, some (.waiting, _) | .releasing, some (.waiting, _) => (x, [])
  | .waiting, some (.waiting, at?, _) => ({ x with admittedAt := some at? }, [])
  | .waiting, some (.held, at?, g) =>
    ({ x with admittedAt := some at? }.heldSince g, [slotEvent .granted k none g])
  | .held, some (.held, at?, g) => ({ x with admittedAt := some at?, grantedAt := g }, [])
  | .held, some (.waiting, at?, _) =>
    ({ x with state := .waiting, admittedAt := some at?, grantedAt := none, holdTimer := .stopped },
      [slotEvent .admitted k none (some at?)])
  | .waiting, none | .held, none => (Slot.empty, [slotEvent .lost k (some .resync) (some base)])
  | .cancelling, some (.held, _, g) =>
    (x.heldSince g, [slotEvent .granted k none g, slotEvent .tooLate k none none])
  | .cancelling, none => (Slot.empty, [slotEvent .withdrawn k (some .gone) none])
  | .releasing, some (.held, _, g) => ({ x with grantedAt := g }, [])
  | .releasing, none => (Slot.empty, [slotEvent .freed k (some .gone) none])

/-- R158: the entry of the slot leaves the queue. -/
def resyncGoes (x : Slot) (record : Standing) : Bool :=
  match x.state, record with
  | .releasing, none | .cancelling, none | .cancelling, some (.held, _) => true
  | _, _ => false

/-- R158: the record of this station's claim with the tag. -/
def State.standing (s : State) (k : Tag) : Standing :=
  (s.mem.number.bind fun me => s.table.find me k.val).map Record.standing

/-- R158 as a rule of rows. -/
def resyncRule (base : Seq) (found : Tag → Standing) : RowRule := fun k x _ =>
  ((resyncRow base k x (found k)).1, (resyncRow base k x (found k)).2, resyncGoes x (found k))

theorem revalidateSlot_eq (base : Seq) (s : State) (t : Tag) :
    State.revalidateSlot base s t = s.takesRow t (s.rowOf (resyncRule base s.standing) t) := by
  have still := s.takesRow_self t
  have slot : s.slot t = s.slots.slots[t] := rfl
  rw [State.rowOf, resyncRule, State.standing]
  simp only [State.revalidateSlot, slot]
  cases state : (s.slots.slots[t]).state <;> cases found : s.mem.number.bind fun me => s.table.find me t.val
  case free.none | free.some | pending.none | pending.some => simp only [resyncRow, resyncGoes, state]; exact still.symm
  case waiting.none | held.none | cancelling.none | releasing.none =>
    simp only [resyncRow, resyncGoes, state, Option.map_none]
    rfl
  all_goals
    next r =>
    cases claim : r.state <;> simp only [resyncRow, resyncGoes, state, claim, Option.map_some, Record.standing, Slot.toHeld_eq]
    all_goals first | exact still.symm | rfl

/-- R158: each slot takes its row. -/
theorem revalidate_eq (s : State) (base : Seq) :
    s.revalidate base = s.settled (s.rows (resyncRule base s.standing) tags)
      (tags.flatMap fun k => (resyncRow base k s.slots.slots[k] (s.standing k)).2) := by
  have each (ts : List Tag) (u : State) (same : u.standing = s.standing) : ts.foldl (State.revalidateSlot base) u =
      ts.foldl (fun u t => u.takesRow t (u.rowOf (resyncRule base s.standing) t)) u := by
    induction ts generalizing u with
    | nil => rfl
    | cons t ts ih =>
      rw [List.foldl_cons, List.foldl_cons, revalidateSlot_eq, same]
      exact ih _ same
  have once : tags.Nodup := List.nodup_finRange 8
  rw [State.revalidate, each tags s rfl, foldl_takesRow _ _ once]
  rfl

theorem mem_tags (k : Tag) : k ∈ tags := List.mem_finRange k

/-- R158: the slots, the queue and the events after a re-validation. -/
theorem revalidate_slots (s : State) (base : Seq) :
    (∀ k : Tag, (s.revalidate base).slots.slots[k] = (resyncRow base k s.slots.slots[k] (s.standing k)).1) ∧
      (∀ q, q ∈ (s.revalidate base).slots.queue ↔
        q ∈ s.slots.queue ∧ (q.purged = true ∨ ¬ resyncGoes s.slots.slots[q.tag] (s.standing q.tag) = true)) ∧
      (s.revalidate base).port.events =
        s.eventsWith (tags.flatMap fun k => (resyncRow base k s.slots.slots[k] (s.standing k)).2) := by
  rw [revalidate_eq]
  refine ⟨fun k => ?_, fun q => ?_, rfl⟩
  · change (s.rows (resyncRule base s.standing) tags).slots[k] = _
    simp only [State.rows, Fin.getElem_fin, Vector.getElem_ofFn, mem_tags, if_true]
    rfl
  · change q ∈ (s.rows (resyncRule base s.standing) tags).queue ↔ _
    rw [State.rows, List.mem_filter]
    simp only [mem_tags, decide_true, Bool.true_and, Bool.or_eq_true, Bool.not_eq_true', Bool.not_eq_true]
    rfl

/-- R158: FREE slots take no row. -/
theorem revalidate_of_free {s : State} (free : ∀ k : Tag, (s.slots.slots[k]).state = .free) (base : Seq) :
    s.revalidate base = s := by
  have still (ts : List Tag) : ts.foldl (State.revalidateSlot base) s = s := by
    induction ts with
    | nil => rfl
    | cons t ts ih =>
      have state : (s.slot t).state = .free := free t
      rw [List.foldl_cons, State.revalidateSlot]
      simp only [state]
      exact ih
  exact still tags

end Sys2Proof.Machine

/-! # The install: what it leaves by step state, station state and roster (R93, R131, R132, R159) -/

namespace Sys2Proof.Machine

/-- R131 step 5: the catch-up unit at rest; the serves stay. -/
def CatchUp.closed (c : CatchUp) : CatchUp :=
  { c with
    phase := .idle, syncreqPending := false, vetoRun := 0, attempts := 0, holdBack := [], wait := .stopped, snapshot := none }

/-- R131 steps 5 and 6, R93, R158: the end of an install, over the state that the held-back frames leave. -/
def State.finishInstall (u : State) (base : Seq) : State :=
  (if u.closeCatchUp.order.step = .inStep then
    if (u.closeCatchUp.settleInstall base).order.step = .inStep then (u.closeCatchUp.settleInstall base).revalidate base
    else u.closeCatchUp.settleInstall base
  else u.closeCatchUp).bump .catchupsCompleted

theorem install_eq (s : State) (sn : Snapshot) (t : Table) :
    s.install sn t =
      ((heldAfter s.cu.holdBack sn.base).foldl State.applyHeld (s.replaceReplicated sn t)).finishInstall sn.base := rfl

/-- R131 step 6: the station in step expects the frame after the last heard. -/
def Order.caughtUp (o : Order) : Order := { o with lastHeard := some (o.expected - 1) }

theorem finishInstall_groupRest (u : State) (base : Seq) : (u.finishInstall base).groupRest = u.groupRest := by
  rw [State.finishInstall, bump_groupRest]
  repeat' split
  all_goals simp

section Finish

variable {u : State} (base : Seq)

theorem closeCatchUp_of_inStep (inStep : u.order.step = .inStep) :
    u.closeCatchUp = { u with cu := u.cu.closed, order := u.order.caughtUp } := if_pos inStep

theorem closeCatchUp_of_out (out : u.order.step ≠ .inStep) : u.closeCatchUp = { u with cu := u.cu.closed } := if_neg out

theorem closeCatchUp_step : u.closeCatchUp.order.step = u.order.step := by
  by_cases inStep : u.order.step = .inStep
  · rw [closeCatchUp_of_inStep inStep]
    rfl
  · rw [closeCatchUp_of_out inStep]

theorem finishInstall_of_out (out : u.order.step ≠ .inStep) :
    u.finishInstall base = State.bump { u with cu := u.cu.closed } .catchupsCompleted := by
  rw [State.finishInstall, if_neg (by rw [closeCatchUp_step]; exact out), closeCatchUp_of_out out]

variable {me : StationNo} (number : u.mem.number = some me) (inStep : u.order.step = .inStep)

/-- R93, R131: the station in its place, before the re-validation. -/
def State.standsIn (u : State) : State :=
  { u with
    cu := u.cu.closed, order := u.order.caughtUp
    mem := if u.mem.state = .joining then { u.mem with pendingJoin := true } else u.mem
    pres := if u.mem.state = .member then { u.pres with beat := .running u.cfg.beatInterval } else u.pres }

include number inStep

theorem finishInstall_of_present
    (stands : u.mem.state = .joining ∨ (u.mem.state = .member ∨ u.mem.state = .leaving) ∧ u.roster.isMember me = true) :
    u.finishInstall base = (u.standsIn.revalidate base).bump .catchupsCompleted := by
  have settled : u.closeCatchUp.settleInstall base = u.standsIn := by
    rw [closeCatchUp_of_inStep inStep, State.standsIn, State.settleInstall]
    obtain state | ⟨state | state, present⟩ := stands <;> simp [state]
    all_goals
      intro absent
      simp [number, present] at absent
  have step : u.standsIn.order.step = .inStep := inStep
  rw [State.finishInstall, settled, if_pos (by rw [closeCatchUp_step]; exact inStep), if_pos step]

theorem finishInstall_of_member_absent (state : u.mem.state = .member) (absent : u.roster.isMember me = false) :
    u.finishInstall base =
      (State.losesPlace { u with cu := u.cu.closed, order := u.order.caughtUp } .removed (some base)).bump
        .catchupsCompleted := by
  have settled : u.closeCatchUp.settleInstall base =
      State.losesPlace { u with cu := u.cu.closed, order := u.order.caughtUp } .removed (some base) := by
    rw [closeCatchUp_of_inStep inStep, State.settleInstall]
    simp only [state, number, Option.map_some, Option.getD_some, absent, Bool.false_eq_true, if_false]
    rfl
  have frame := State.losesPlace_frame { u with cu := u.cu.closed, order := u.order.caughtUp } .removed (some base)
  have slot := State.losesPlace_slot { u with cu := u.cu.closed, order := u.order.caughtUp } .removed (some base)
  generalize State.losesPlace { u with cu := u.cu.closed, order := u.order.caughtUp } .removed (some base) = w at *
  have step : w.order.step = .inStep := (congrArg (·.order.step) frame).trans inStep
  rw [State.finishInstall, settled, if_pos (by rw [closeCatchUp_step]; exact inStep), if_pos step,
    revalidate_of_free fun k => by rw [slot k]; rfl]

theorem finishInstall_of_leaving_absent (state : u.mem.state = .leaving) (absent : u.roster.isMember me = false) :
    u.finishInstall base =
      (State.putOut { u with cu := u.cu.closed, order := u.order.caughtUp } .detached .removed .removed (some base)
        (some base) .lost).bump .catchupsCompleted := by
  have settled : u.closeCatchUp.settleInstall base =
      State.putOut { u with cu := u.cu.closed, order := u.order.caughtUp } .detached .removed .removed (some base)
        (some base) .lost := by
    rw [closeCatchUp_of_inStep inStep, State.settleInstall]
    simp only [state, number, Option.map_some, Option.getD_some, absent, Bool.false_eq_true, if_false]
    rfl
  have out := State.putOut_outOfGroup { u with cu := u.cu.closed, order := u.order.caughtUp } .detached .removed .removed
    (some base) (some base) .lost
  generalize State.putOut { u with cu := u.cu.closed, order := u.order.caughtUp } .detached .removed .removed
    (some base) (some base) .lost = w at *
  rw [State.finishInstall, settled, if_pos (by rw [closeCatchUp_step]; exact inStep), if_neg (by rw [out.1]; exact nofun)]

end Finish

/-! ### The frames held back (R46, R131) -/

/-- R46: a frame held back takes the station out of step only with its listen timer stopped or started anew. -/
theorem applyHeld_listen {v : State} (h : Held) {full : Nat} (cfg : v.cfg.absenceTime = full)
    (before : v.order.step = .inStep ∨ v.mem.listen = .stopped ∨ v.mem.listen = .running full) :
    (v.applyHeld h).order.step = .inStep ∨ (v.applyHeld h).mem.listen = .stopped ∨
      (v.applyHeld h).mem.listen = .running full := by
  by_cases inStep : v.order.step = .inStep
  · rw [State.applyHeld, if_pos inStep]
    have rest := settleSlots_slotRest ((v.afterMove h.frame h.own).reload h.own) (v.moveOf h.frame h.own) h.frame h.own none
      (v.reportOf h.frame)
    have order : (v.applyFrame false h.own none h.frame).order = (v.afterMove h.frame h.own).order := by
      refine (congrArg SlotRest.order rest).trans ?_
      rw [reload_frame]
      rfl
    have mem := applyFrame_mem v false h.own none h.frame
    have same := membershipStep_sameButRoster (v.afterTable h.frame) h.frame h.own
    have step : (v.afterMembership h.frame h.own).1.order.step = .inStep := (congrArg (·.step) same.order).trans inStep
    have time : (v.afterMembership h.frame h.own).1.cfg.absenceTime = full := (congrArg Cfg.absenceTime same.cfg).trans cfg
    rw [order, mem, State.afterMove]
    generalize (v.afterMembership h.frame h.own).1 = m at step time
    cases v.moveOf h.frame h.own with
    | stay => exact .inl step
    | becomeMember => exact .inl step
    | loseMembership c =>
      rw [State.makeMove, enterJoining_eq]
      exact .inl step
    | leaveGroup st c => exact .inr (.inl rfl)
    | dissolve => exact .inr (.inr (congrArg Timer.running time))
  · rw [State.applyHeld, if_neg inStep]
    exact before

/-- What the frames held back leave as it was (R131 step 4). -/
theorem foldl_applyHeld_keeps (q : List Held) (v : State) :
    (q.foldl State.applyHeld v).cfg = v.cfg ∧ (q.foldl State.applyHeld v).mem.number = v.mem.number ∧
      (q.foldl State.applyHeld v).line = v.line := by
  have group := foldl_groupRest State.applyHeld applyHeld_groupRest q v
  exact ⟨congrArg GroupRest.cfg group, congrArg GroupRest.number group, congrArg GroupRest.line group⟩

theorem foldl_applyHeld_listen (q : List Held) (v : State) (inStep : v.order.step = .inStep) :
    (q.foldl State.applyHeld v).order.step = .inStep ∨ (q.foldl State.applyHeld v).mem.listen = .stopped ∨
      (q.foldl State.applyHeld v).mem.listen = .running v.cfg.absenceTime := by
  have general (q : List Held) (w : State) (cfg : w.cfg.absenceTime = v.cfg.absenceTime)
      (before : w.order.step = .inStep ∨ w.mem.listen = .stopped ∨ w.mem.listen = .running v.cfg.absenceTime) :
      (q.foldl State.applyHeld w).order.step = .inStep ∨ (q.foldl State.applyHeld w).mem.listen = .stopped ∨
        (q.foldl State.applyHeld w).mem.listen = .running v.cfg.absenceTime := by
    induction q generalizing w with
    | nil => exact before
    | cons h q ih =>
      refine ih _ ?_ (applyHeld_listen h cfg before)
      exact (congrArg (fun g => g.cfg.absenceTime) (applyHeld_groupRest w h)).trans cfg
  exact general q v rfl (.inl inStep)

end Sys2Proof.Machine

/-! # What FRAME_END leaves once a snapshot is installed (R83, R93, R105, R131, R132, R158, R159) -/

namespace Sys2Proof.Machine

/-! ### The counters (R186) -/

theorem revalidate_frame (s : State) (base : Seq) :
    s.revalidate base = { s with slots := (s.revalidate base).slots, port := (s.revalidate base).port } := by
  rw [revalidate_eq]
  rfl

theorem revalidate_counters (s : State) (base : Seq) : (s.revalidate base).port.counters = s.port.counters := by
  rw [revalidate_eq]
  exact s.tells_counters _

theorem settleInstall_counters (s : State) (base : Seq) : (s.settleInstall base).port.counters = s.port.counters := by
  unfold State.settleInstall
  cases s.mem.state with
  | member =>
    dsimp only
    split
    · rfl
    · exact State.losesPlace_counters s .removed (some base)
  | leaving =>
    dsimp only
    split
    · rfl
    · exact State.putOut_counters s .detached .removed .removed (some base) (some base) .lost
  | _ => rfl

theorem closeCatchUp_counters (u : State) : u.closeCatchUp.port.counters = u.port.counters := by
  unfold State.closeCatchUp
  dsimp only
  split <;> rfl

theorem finishInstall_counters (u : State) (base : Seq) (k : Fin 28) :
    (u.finishInstall base).port.counters[k] = if k = 7 then satInc u.port.counters[k] else u.port.counters[k] := by
  refine (State.bump_counters _ .catchupsCompleted k).trans ?_
  have inner : (if u.closeCatchUp.order.step = .inStep then
      if (u.closeCatchUp.settleInstall base).order.step = .inStep then (u.closeCatchUp.settleInstall base).revalidate base
      else u.closeCatchUp.settleInstall base
    else u.closeCatchUp).port.counters = u.port.counters := by
    repeat' split
    · rw [revalidate_counters, settleInstall_counters, closeCatchUp_counters]
    · rw [settleInstall_counters, closeCatchUp_counters]
    · exact closeCatchUp_counters u
  rw [inner]
  rfl

/-! ### After the SNAP's timers -/

section Installed

variable {u : State} {base : Seq} {x me : StationNo}

theorem installed_counters (k : Fin 28) : ((u.finishInstall base).hearsSnapOf x).port.counters[k] =
    if k = 7 then satInc u.port.counters[k] else u.port.counters[k] := by
  rw [State.hearsSnapOf_eq]
  exact finishInstall_counters u base k

/-- R131: the station is out of step again. -/
theorem installed_of_out (out : u.order.step ≠ .inStep)
    (listen : u.mem.listen = .stopped ∨ u.mem.listen = .running u.cfg.absenceTime) :
    let t := (u.finishInstall base).hearsSnapOf x
    t.order = u.order ∧ t.table = u.table ∧ t.roster = u.roster ∧ t.mem = u.mem ∧ t.slots = u.slots ∧ t.cu = u.cu.closed ∧
      t.port.events = u.port.events := by
  rw [finishInstall_of_out base out]
  have frame := State.hearsSnapOf_eq (State.bump { u with cu := u.cu.closed } .catchupsCompleted) x
  have mem := State.hearsSnapOf_mem (State.bump { u with cu := u.cu.closed } .catchupsCompleted) x
  generalize (State.bump { u with cu := u.cu.closed } .catchupsCompleted).hearsSnapOf x = t at *
  refine ⟨congrArg (·.order) frame, congrArg (·.table) frame, congrArg (·.roster) frame, mem.trans ?_,
    congrArg (·.slots) frame, congrArg (·.cu) frame, congrArg (·.port.events) frame⟩
  change { u.mem with listen := if u.mem.listen = .stopped then .stopped else .running u.cfg.absenceTime } = u.mem
  obtain listen | listen := listen <;> rw [listen]
  · exact congrArg (fun l => { u.mem with listen := l }) listen.symm
  · exact congrArg (fun l => { u.mem with listen := l }) listen.symm

section InStep

variable (number : u.mem.number = some me) (inStep : u.order.step = .inStep)

include number inStep

/-- R93, R158: the station is listed, or about to join: its slots are re-validated. -/
theorem installed_of_present
    (stands : u.mem.state = .joining ∨ (u.mem.state = .member ∨ u.mem.state = .leaving) ∧ u.roster.isMember me = true) :
    let t := (u.finishInstall base).hearsSnapOf x
    let standing (k : Tag) : Standing := (u.table.find me k.val).map Record.standing
    t.order = u.order.caughtUp ∧ t.table = u.table ∧ t.roster = u.roster ∧ t.cu = u.cu.closed ∧ t.mem.state = u.mem.state ∧
      (u.mem.state = .joining → t.mem.pendingJoin = true) ∧
      (u.mem.state = .member → t.pres.beat = .running u.cfg.beatInterval) ∧
      (∀ n : StationNo, n ≠ x → t.pres.absence[n] = u.pres.absence[n]) ∧
      (∀ k : Tag, t.slots.slots[k] = (resyncRow base k u.slots.slots[k] (standing k)).1) ∧
      (∀ q, q ∈ t.slots.queue ↔
        q ∈ u.slots.queue ∧ (q.purged = true ∨ ¬ resyncGoes u.slots.slots[q.tag] (standing q.tag) = true)) ∧
      t.port.events = u.eventsWith (tags.flatMap fun k => (resyncRow base k u.slots.slots[k] (standing k)).2) := by
  rw [finishInstall_of_present base number inStep stands]
  have standing : u.standsIn.standing = fun k => (u.table.find me k.val).map Record.standing := by
    funext k
    have same : u.standsIn.mem.number = some me := by
      rw [← number, State.standsIn]
      dsimp only
      split <;> rfl
    rw [State.standing, same]
    rfl
  obtain ⟨slots, queue, events⟩ := revalidate_slots u.standsIn base
  rw [standing] at slots queue events
  have kept := revalidate_frame u.standsIn base
  generalize u.standsIn.revalidate base = v at *
  have frame := State.hearsSnapOf_eq (v.bump .catchupsCompleted) x
  have mem := State.hearsSnapOf_mem (v.bump .catchupsCompleted) x
  have beat := (State.hearsSnapOf_beat (v.bump .catchupsCompleted) x).1
  have absence := State.hearsSnapOf_absence (v.bump .catchupsCompleted) x
  generalize (v.bump .catchupsCompleted).hearsSnapOf x = t at *
  have stationMem : v.mem = if u.mem.state = .joining then { u.mem with pendingJoin := true } else u.mem :=
    congrArg (·.mem) kept
  have pres : v.pres = if u.mem.state = .member then { u.pres with beat := .running u.cfg.beatInterval } else u.pres :=
    congrArg (·.pres) kept
  refine ⟨(congrArg (·.order) frame).trans (congrArg (·.order) kept), (congrArg (·.table) frame).trans (congrArg (·.table) kept),
    (congrArg (·.roster) frame).trans (congrArg (·.roster) kept), (congrArg (·.cu) frame).trans (congrArg (·.cu) kept),
    ?_, fun joining => ?_, fun member => ?_, fun n other => ?_, fun k => ?_, fun q => ?_, ?_⟩
  · rw [mem]
    change v.mem.state = _
    rw [stationMem]
    split <;> rfl
  · rw [mem]
    change v.mem.pendingJoin = true
    rw [stationMem, if_pos joining]
  · rw [beat]
    change v.pres.beat = _
    rw [pres, if_pos member]
  · rw [absence, if_neg fun all => other all.1.symm]
    change v.pres.absence[n] = _
    rw [pres]
    split <;> rfl
  · exact (congrArg (fun w : SlotUnit => w.slots[k]) (congrArg (·.slots) frame)).trans (slots k)
  · rw [congrArg (·.slots) frame]
    exact queue q
  · exact (congrArg (·.port.events) frame).trans events

/-- R93, R159: a MEMBER that the installed roster does not list. -/
theorem installed_of_member_absent (state : u.mem.state = .member) (absent : u.roster.isMember me = false) :
    let t := (u.finishInstall base).hearsSnapOf x
    t.order = u.order.caughtUp ∧ t.table = u.table ∧ t.roster = u.roster ∧ t.mem.state = .joining ∧
      t.mem.pendingJoin = true ∧ t.cu = CatchUp.idle ∧ t.pres.beat = .stopped ∧
      (∀ k : Tag, t.slots.slots[k] = Slot.empty) ∧ (∀ q ∈ t.slots.queue, q.purged = true) ∧
      t.port.events = u.eventsWith
        (stateEvent .joining .removed (some base) :: u.slotEnds .lost .removed (some base)) := by
  rw [finishInstall_of_member_absent base number inStep state absent]
  generalize closed : ({ u with cu := u.cu.closed, order := u.order.caughtUp } : State) = w
  have lost := w.losesPlace_frame .removed (some base)
  have slot := w.losesPlace_slot .removed (some base)
  have events := w.losesPlace_events .removed (some base) (by rw [← closed]; exact state)
  have purged : ∀ q ∈ (w.losesPlace .removed (some base)).slots.queue, q.purged = true := State.clearSlots_purged _ _ _ _
  generalize w.losesPlace .removed (some base) = v at *
  have frame := State.hearsSnapOf_eq (v.bump .catchupsCompleted) x
  have mem := State.hearsSnapOf_mem (v.bump .catchupsCompleted) x
  have beat := (State.hearsSnapOf_beat (v.bump .catchupsCompleted) x).1
  generalize (v.bump .catchupsCompleted).hearsSnapOf x = t at *
  subst closed
  refine ⟨(congrArg (·.order) frame).trans (congrArg (·.order) lost), (congrArg (·.table) frame).trans (congrArg (·.table) lost),
    (congrArg (·.roster) frame).trans (congrArg (·.roster) lost),
    (congrArg (·.state) mem).trans (congrArg (·.mem.state) lost),
    (congrArg (·.pendingJoin) mem).trans (congrArg (·.mem.pendingJoin) lost),
    (congrArg (·.cu) frame).trans (congrArg (·.cu) lost), beat.trans (congrArg (·.pres.beat) lost), fun k => ?_, ?_,
    (congrArg (·.port.events) frame).trans events⟩
  · exact (congrArg (fun w : SlotUnit => w.slots[k]) (congrArg (·.slots) frame)).trans (slot k)
  · rw [congrArg (·.slots) frame]
    exact purged

/-- R93, R159: a LEAVING station that the installed roster does not list. -/
theorem installed_of_leaving_absent (state : u.mem.state = .leaving) (absent : u.roster.isMember me = false) :
    let t := (u.finishInstall base).hearsSnapOf x
    t.mem.state = .detached ∧ t.outOfGroup ∧ t.port.events = u.eventsWith
      (stateEvent .detached .removed (some base) :: u.slotEnds .lost .removed (some base)) := by
  rw [finishInstall_of_leaving_absent base number inStep state absent]
  generalize closed : ({ u with cu := u.cu.closed, order := u.order.caughtUp } : State) = w
  have out := w.putOut_outOfGroup .detached .removed .removed (some base) (some base) .lost
  have lost := w.putOut_frame .detached .removed .removed (some base) (some base) .lost
  have events := w.putOut_events .detached .removed .removed (some base) (some base) .lost
  generalize w.putOut .detached .removed .removed (some base) (some base) .lost = v at *
  have empty : v.roster = Roster.empty := congrArg (·.roster) lost
  have stopped : v.mem.listen = .stopped := congrArg (·.mem.listen) lost
  have unheard : (v.bump .catchupsCompleted).hearsSnapOf x = v.bump .catchupsCompleted := by
    unfold State.hearsSnapOf
    rw [State.restartListen_eq, if_pos (by exact stopped)]
    exact State.heardFrom_of_not_member (by rw [show (v.bump .catchupsCompleted).roster = Roster.empty from empty]; exact Roster.empty_isMember _)
  rw [unheard]
  subst closed
  exact ⟨congrArg (·.mem.state) lost, out, events⟩

end InStep

end Installed

end Sys2Proof.Machine

/-! # A frame held back acts as the same frame taken live (R46, R98, R99) -/

namespace Sys2Proof.Machine

/-! ### States that differ in what an application does not read -/

/-- The states differ in line and port, not in the attempt on the line or in the events waiting. -/
def State.Alike (a b : State) : Prop :=
  b = { a with line := b.line, port := b.port } ∧ b.line.onLine = a.line.onLine ∧ b.port.events = a.port.events

namespace State.Alike

variable {a b : State} (h : a.Alike b)

include h

theorem exists_eq : ∃ l p, b = { a with line := l, port := p } ∧ l.onLine = a.line.onLine ∧ p.events = a.port.events :=
  ⟨b.line, b.port, h.1, h.2.1, h.2.2⟩

theorem emit (e : Event) : (a.emit e).Alike (b.emit e) := by
  obtain ⟨l, p, rfl, on, events⟩ := h.exists_eq
  exact ⟨rfl, on, Port.append_events_congr e events _ _⟩

theorem tells (es : List Event) : (a.tells es).Alike (b.tells es) := by
  induction es generalizing a b with
  | nil => exact h
  | cons e es ih => exact ih (h.emit e)

theorem bump (c c' : Bool) (k k' : Counter) : (if c then a.bump k else a).Alike (if c' then b.bump k' else b) := by
  obtain ⟨l, p, rfl, on, events⟩ := h.exists_eq
  cases c <;> cases c' <;> exact ⟨rfl, on, events⟩

theorem slotOnLine (t : Tag) : b.slotOnLine t = a.slotOnLine t := by
  obtain ⟨l, p, rfl, on, _⟩ := h.exists_eq
  simp only [State.slotOnLine, State.entryOnLine, on]

theorem settled (x : SlotUnit) (es : List Event) : (a.settled x es).Alike (b.settled x es) := by
  have told := h.tells es
  obtain ⟨l, p, rfl, _, _⟩ := h.exists_eq
  exact ⟨rfl, told.2.1, told.2.2⟩

theorem slots : b.slots = a.slots := by
  rw [h.1]

theorem takesRow (rule : RowRule) (t : Tag) : (a.takesRow t (a.rowOf rule t)).Alike (b.takesRow t (b.rowOf rule t)) := by
  have row : b.rowOf rule t = a.rowOf rule t := by rw [State.rowOf, State.rowOf, h.slots, h.slotOnLine]
  rw [State.takesRow, State.takesRow, row, h.slots]
  exact h.settled _ _

theorem foldl_takesRow (rule : RowRule) (ts : List Tag) :
    (ts.foldl (fun u t => u.takesRow t (u.rowOf rule t)) a).Alike (ts.foldl (fun u t => u.takesRow t (u.rowOf rule t)) b) := by
  induction ts generalizing a b with
  | nil => exact h
  | cons t ts ih => exact ih (h.takesRow rule t)

theorem settleReport (f : Frame) (rep : Report) :
    (a.settleReport f false none rep).Alike (b.settleReport f false none rep) := by
  have gone : b.goneTags f false rep = a.goneTags f false rep := by rw [h.1]; rfl
  have granted : b.grantedTags f false rep = a.grantedTags f false rep := by rw [h.1]; rfl
  rw [settleReport_eq, settleReport_eq, gone, granted, foldl_ownRemoved_rows, foldl_ownGrant_rows, foldl_ownRemoved_rows,
    foldl_ownGrant_rows, if_neg Bool.false_ne_true, if_neg Bool.false_ne_true]
  exact (h.foldl_takesRow _ _).foldl_takesRow _ _

theorem clearSlots (k : EventKind) (c : Cause) (q : Option Seq) : (a.clearSlots k c q).Alike (b.clearSlots k c q) := by
  have purged : b.purgedQueue = a.purgedQueue := by
    obtain ⟨l, p, rfl, on, _⟩ := h.exists_eq
    simp only [State.purgedQueue, State.entryOnLine, on]
  have ends : b.slotEnds k c q = a.slotEnds k c q := slotEnds_congr h.slots k c q
  rw [State.clearSlots_eq, State.clearSlots_eq, purged, ends, h.slots]
  exact h.settled _ _

theorem makeMove (m : Move) (q : Seq) : (a.makeMove m q).Alike (b.makeMove m q) := by
  obtain ⟨l, p, rfl, on, events⟩ := h.exists_eq
  cases m with
  | stay => exact h
  | loseMembership c =>
    simp only [State.makeMove, State.enterJoining]
    split
    · exact ⟨rfl, on, events⟩
    · exact ⟨rfl, on, Port.append_events_congr _ events _ _⟩
  | _ => exact ⟨rfl, on, Port.append_events_congr _ events _ _⟩

theorem settleSlots (m : Move) (f : Frame) (rep : Report) :
    (a.settleSlots m f false none rep).Alike (b.settleSlots m f false none rep) := by
  cases m with
  | stay => exact h.settleReport f rep
  | becomeMember => exact h.settleReport f rep
  | _ => exact h.clearSlots _ _ _

end State.Alike

/-- R91, R95, R110: roster and timers after the membership effect, kind by kind. -/
theorem afterMembership_roster_alike {a b : State} (h : a.Alike b) (f : Frame) :
    (b.afterMembership f false).1.roster = (a.afterMembership f false).1.roster ∧
      (b.afterMembership f false).1.pres = (a.afterMembership f false).1.pres := by
  obtain ⟨l, p, rfl, _, _⟩ := h.exists_eq
  by_cases plain : f.body.kind ≠ .join ∧ f.body.kind ≠ .leave ∧ f.body.kind ≠ .evict
  · obtain ⟨roster, pres, _⟩ := afterMembership_of_plain a f false plain
    obtain ⟨roster', pres', _⟩ := afterMembership_of_plain { a with line := l, port := p } f false plain
    exact ⟨roster'.trans roster.symm, pres'.trans pres.symm⟩
  · cases body : f.body with
    | join d =>
      by_cases accepted : a.roster.digest = some d
      · obtain ⟨roster, pres⟩ := afterMembership_of_join (s := a) false body accepted
        obtain ⟨roster', pres'⟩ := afterMembership_of_join (s := { a with line := l, port := p }) false body accepted
        exact ⟨roster'.trans roster.symm, pres'.trans pres.symm⟩
      · obtain ⟨roster, pres⟩ := afterMembership_of_refused (s := a) false body accepted
        obtain ⟨roster', pres'⟩ := afterMembership_of_refused (s := { a with line := l, port := p }) false body accepted
        exact ⟨roster'.trans roster.symm, pres'.trans pres.symm⟩
    | leave =>
      obtain ⟨roster, pres⟩ := afterMembership_of_leave (s := a) false body
      obtain ⟨roster', pres'⟩ := afterMembership_of_leave (s := { a with line := l, port := p }) false body
      exact ⟨roster'.trans roster.symm, pres'.trans pres.symm⟩
    | evict target =>
      by_cases stale : ∀ x : StationNo, x.val = target.toNat → a.roster.isMember x = false ∨ x = f.sender
      · obtain ⟨roster, pres, _⟩ := afterMembership_of_stale (s := a) false body stale
        obtain ⟨roster', pres', _⟩ := afterMembership_of_stale (s := { a with line := l, port := p }) false body stale
        exact ⟨roster'.trans roster.symm, pres'.trans pres.symm⟩
      · simp only [not_forall, not_or, Bool.not_eq_false] at stale
        obtain ⟨x, named, member, apart⟩ := stale
        have body : f.body = .evict (byteOf x.val) := by
          rw [body]
          congr 1
          exact BitVec.eq_of_toNat_eq (named.symm.trans (byteOf_toNat x).symm)
        obtain ⟨roster, pres, _⟩ := afterMembership_of_evict (s := a) body member apart false
        obtain ⟨roster', pres', _⟩ := afterMembership_of_evict (s := { a with line := l, port := p }) body member apart false
        exact ⟨roster'.trans roster.symm, pres'.trans pres.symm⟩
    | _ => simp [body, Body.kind] at plain

namespace State.Alike

variable {a b : State} (h : a.Alike b) (f : Frame)

include h

theorem afterMembership : (a.afterMembership f false).1.Alike (b.afterMembership f false).1 := by
  obtain ⟨roster, pres⟩ := afterMembership_roster_alike h f
  have table : (a.afterTable f).Alike (b.afterTable f) := by
    obtain ⟨l, p, rfl, on, events⟩ := h.exists_eq
    exact ⟨rfl, on, events⟩
  have news : b.newsOf f ++ b.twinOf f false = a.newsOf f ++ a.twinOf f false := by rw [h.1]; rfl
  have told := (table.bump (a.stale f) (b.stale f) .staleEvictions .staleEvictions).tells (a.newsOf f ++ a.twinOf f false)
  rw [afterMembership_state a, afterMembership_state b, roster, pres, news]
  obtain ⟨l, p, eq, on, events⟩ := told.exists_eq
  rw [eq]
  exact ⟨rfl, on, events⟩

theorem moveOf : b.moveOf f false = a.moveOf f false := by
  rw [moveOf_eq, moveOf_eq, (afterMembership_roster_alike h f).1]
  congr 1
  rw [h.1]
  rfl

/-- R46: the application of a frame held back. -/
theorem applyFrame : (a.applyFrame false false none f).Alike (b.applyFrame false false none f) := by
  have report : b.reportOf f = a.reportOf f := by rw [h.1]; rfl
  rw [applyFrame_eq, applyFrame_eq, if_neg Bool.false_ne_true, if_neg Bool.false_ne_true, State.afterSlots, State.afterSlots,
    State.afterMove, State.afterMove, h.moveOf, report]
  exact ((h.afterMembership f).makeMove _ _).settleSlots _ _ _

end State.Alike

theorem State.countsFrom_alike (s : State) (n : StationNo) : s.Alike (s.countsFrom n) := ⟨rfl, rfl, rfl⟩

/-! ### The frame taken live -/

section Live

variable {s : State} {f : Frame} (inStep : s.order.step = .inStep)

include inStep

theorem liveAsHeld {others : List Bool} (reads : s.readsSlot (.good f) .accept others true true) (calm : s.line.faulted = none)
    (kind : f.body.kind ≠ .beat ∧ f.body.kind ≠ .syncreq) :
    ∃ t, exec (.frameOutcome others) s = .next t ∧
      let held := s.applyFrame false false none f
      t.order = held.order ∧ t.table = held.table ∧ t.roster = held.roster ∧ t.mem = held.mem ∧ t.cu = held.cu ∧
        t.slots = held.slots ∧ t.port.events = held.port.events ∧ t.pres.beat = held.pres.beat ∧
        ∀ n : StationNo, n ≠ f.sender → t.pres.absence[n] = held.pres.absence[n] := by
  have next := exec_frameOutcome_of_taken reads calm
  rw [taken_of_accept (by exact inStep)] at next
  have live : (s.countsFrom f.sender).applyFrame true false none f = (s.countsFrom f.sender).applyFrame false false none f := by
    rw [applyFrame_eq, applyFrame_eq, if_pos rfl, if_neg Bool.false_ne_true, lastStep_of_tabled _ _ _ _ (.inl kind)]
  have alike := (s.countsFrom_alike f.sender).applyFrame f
  rw [live] at next
  generalize s.applyFrame false false none f = held at alike
  obtain ⟨l, p, eq, _, events⟩ := alike.exists_eq
  rw [eq] at next
  have beat := (State.heardFrom_beat { held with line := l, port := p } f.sender).1
  have absence (n : StationNo) (other : n ≠ f.sender) :=
    heardFrom_absence_other { held with line := l, port := p } (x := f.sender) other
  rw [State.heardFrom_eq] at next
  exact ⟨_, next, rfl, rfl, rfl, rfl, rfl, rfl, events, beat, absence⟩

end Live

/-! ### A BEAT or a SYNCREQ held back -/

theorem Roster.recordTaken_eq (r : Roster) (x : StationNo) (q : Seq) :
    r.recordTaken x q = { r with members := Vector.ofFn fun n =>
      if n = x then (r.members[n]).map fun m => { m with lastTaken := q } else r.members[n] } := by
  have members : (r.recordTaken x q).members = Vector.ofFn fun n =>
      if n = x then (r.members[n]).map fun m => { m with lastTaken := q } else r.members[n] := Vector.ext fun i near => by
    have here := Roster.recordTaken_members r x q ⟨i, near⟩
    rw [Vector.getElem_ofFn]
    exact here
  rw [← members]
  unfold Roster.recordTaken
  split <;> rfl

/-- The station once a frame has passed it: heard, and recorded of its sender. -/
def State.passedBy (s : State) (f : Frame) : State :=
  { s with
    order := { s.order with expected := f.seq + 1, lastHeard := some f.seq }
    roster := { s.roster with members := Vector.ofFn fun n => if n = f.sender then
      (s.roster.members[n]).map fun m => { m with lastTaken := f.seq } else s.roster.members[n] } }

section Passing

variable {s : State} {f : Frame} (kind : f.body.kind = .beat ∨ f.body.kind = .syncreq)

include kind

theorem afterMembership_of_passing (own : Bool) :
    (s.afterMembership f own).1 = (s.passedBy f).tells (s.twinOf f own) := by
  have plain : f.body.kind ≠ .join ∧ f.body.kind ≠ .leave ∧ f.body.kind ≠ .evict := by
    obtain kind | kind := kind <;> simp [kind]
  obtain ⟨roster, pres, _, news, fresh⟩ := afterMembership_of_plain s f own plain
  have table : (s.table.apply s.cfg s.roster.isMember f).1 = s.table := by
    obtain kind | kind := kind <;> cases body : f.body <;> simp [body, Body.kind] at kind <;> simp only [Table.apply, body]
  have commutes (es : List Event) (v : State) (r : Roster) (p : Presence) :
      ({ v.tells es with roster := r, pres := p } : State) = State.tells { v with roster := r, pres := p } es := by
    induction es generalizing v with
    | nil => rfl
    | cons e es ih => exact ih (v.emit e)
  rw [afterMembership_state, roster, pres, news, fresh, if_neg Bool.false_ne_true, List.nil_append, commutes,
    Roster.recordTaken_eq, State.afterTable, table]
  rfl

theorem reportOf_passing : s.reportOf f = {} := by
  obtain kind | kind := kind <;> cases body : f.body <;> simp [body, Body.kind] at kind <;>
    simp only [State.reportOf, Table.apply, body]

/-- R46: no server is named, and no fingerprint compared. -/
theorem heldPasses (own : Bool) (remain : ∃ n, s.roster.isMember n = true ∧ n ≠ f.sender) :
    s.applyFrame false own none f = ((s.passedBy f).tells (s.twinOf f own)).reload own := by
  have plain : f.body.kind ≠ .join ∧ f.body.kind ≠ .leave ∧ f.body.kind ≠ .evict := by
    obtain kind | kind := kind <;> simp [kind]
  obtain ⟨n, member, other⟩ := remain
  have stay : s.moveOf f own = .stay := moveOf_of_plain plain member (.inr other)
  rw [applyFrame_of_stay stay, reportOf_passing kind, afterMembership_of_passing kind]
  cases own <;> rfl

end Passing

/-- R98: a SYNCREQ held back that nobody could serve. -/
theorem heldSyncreqDissolves {s : State} {f : Frame} (body : f.body = .syncreq)
    (alone : ∀ n : StationNo, s.roster.isMember n = true → n = f.sender) (peer : s.mem.number ≠ some f.sender) :
    let t := s.applyFrame false false none f
    t.mem.state = .listening ∧ t.outOfGroup ∧ t.port.events = s.eventsWith
      (stateEvent .listening .dissolved (some f.seq) :: s.slotEnds .lost .dissolved (some f.seq)) := by
  have kind : f.body.kind = .syncreq := by simp [body, Body.kind]
  have passed := afterMembership_of_passing (s := s) (.inr kind) false
  rw [twinOf_peer (decide_eq_false peer)] at passed
  have member (n : StationNo) : (s.passedBy f).roster.isMember n = s.roster.isMember n := by
    rw [State.passedBy, ← Roster.recordTaken_eq, Roster.isMember_recordTaken]
  have dissolved : (s.passedBy f).roster.dissolvedBy f = true :=
    (Roster.dissolvedBy_of_alone fun n here => ⟨kind, alone n ((member n).symm.trans here)⟩).2 (.inl kind)
  have asked : s.moveAsked f false = .stay := by simp only [State.moveAsked, body]
  have move : s.moveOf f false = .dissolve := by
    rw [moveOf_eq, asked, passed]
    change Move.withDissolution .stay ((s.passedBy f).roster.dissolvedBy f) = _
    rw [dissolved]
    rfl
  rw [applyFrame_of_dissolve false none move (by rw [kind]; exact nofun), passed]
  exact ⟨congrArg (·.mem.state) (State.dissolves_frame (s.passedBy f) _), State.dissolves_outOfGroup .., State.dissolves_events ..⟩

end Sys2Proof.Machine

/-! # A snapshot completed: refused, failed or installed (R126 to R135, R158) -/

namespace Sys2Proof.Machine

/-- R131 steps 1 to 3: table and roster replaced, the station in step, the absence timers by the header's list. -/
def State.replacedBy (s : State) (me : StationNo) (sn : Snapshot) (table : Table) : State :=
  { s.snapStored sn with
    table := table
    roster := { members := membersOfHeader sn.members sn.lastTaken, digest := some sn.digest }
    order := { step := .inStep, expected := sn.base + 1, lastHeard := s.order.lastHeard, rxRun := 0, ownRun := 0
               ownRunOf := none }
    pres := { s.pres with absence := Vector.ofFn fun n =>
      if sn.members.toNat.testBit n.val = true ∧ n ≠ me then .running s.cfg.absenceTime else .stopped } }

/-- R131 step 4: the frames held back that lie after the base, applied in turn. -/
def State.caughtUpBy (s : State) (me : StationNo) (sn : Snapshot) (table : Table) : State :=
  (s.cu.holdBack.filter fun h =>
      decide (1 ≤ (h.frame.seq - sn.base).toNat ∧ (h.frame.seq - sn.base).toNat ≤ 32768)).foldl
    (fun v h => if v.order.step = .inStep then v.applyFrame false h.own none h.frame else v) (s.replacedBy me sn table)

theorem heldAfter_eq (q : List Held) (base : Seq) : heldAfter q base = q.filter fun h =>
    decide (1 ≤ (h.frame.seq - base).toNat ∧ (h.frame.seq - base).toNat ≤ 32768) := by
  refine List.filter_congr fun h _ => ?_
  have same : h.frame.seq = base ↔ (h.frame.seq - base).toNat = 0 := by
    rw [← BitVec.toNat_inj, BitVec.toNat_sub]
    have := h.frame.seq.isLt
    have := base.isLt
    omega
  rw [Bool.eq_iff_iff, earlier]
  simp only [Bool.not_eq_true', Bool.or_eq_false_iff, decide_eq_false_iff_not, decide_eq_true_eq, same]
  omega

theorem membersOfHeader_getElem (members : Half) (lastTaken : List Seq) (n : StationNo) :
    (membersOfHeader members lastTaken)[n] = if members.toNat.testBit n.val then
      some { joinedAt := (lastTaken[((List.range n.val).filter fun k => members.toNat.testBit k).length]?).getD 0
             lastTaken := (lastTaken[((List.range n.val).filter fun k => members.toNat.testBit k).length]?).getD 0 }
      else none := by
  simp only [membersOfHeader, Fin.getElem_fin, Vector.getElem_ofFn]

section Install

variable {s : State} {me : StationNo} (number : s.mem.number = some me) (sn : Snapshot) (table : Table)

include number

theorem replaceReplicated_eq : (s.snapStored sn).replaceReplicated sn table = s.replacedBy me sn table := by
  have watched : ((s.snapStored sn).pres.watchMembers { members := membersOfHeader sn.members sn.lastTaken, digest := some sn.digest }
      (s.snapStored sn).mem.number (s.snapStored sn).cfg.absenceTime) =
      { s.pres with absence := Vector.ofFn fun n =>
        if sn.members.toNat.testBit n.val = true ∧ n ≠ me then .running s.cfg.absenceTime else .stopped } := by
    change ({ s.pres with absence := _ } : Presence) = _
    refine congrArg (fun v => { s.pres with absence := v }) (congrArg Vector.ofFn (funext fun n => ?_))
    have same : (s.snapStored sn).mem.number = some me := number
    rw [isMember_membersOfHeader, same]
    refine if_congr ?_ rfl rfl
    rw [Bool.and_eq_true, decide_eq_true_eq, ne_eq, Option.some.injEq, eq_comm (a := me)]
  rw [State.replaceReplicated, watched]
  rfl

theorem install_snapStored : (s.snapStored sn).install sn table = (s.caughtUpBy me sn table).finishInstall sn.base := by
  rw [install_eq, replaceReplicated_eq number]
  change ((heldAfter s.cu.holdBack sn.base).foldl State.applyHeld (s.replacedBy me sn table)).finishInstall sn.base = _
  rw [heldAfter_eq]
  rfl

omit number in
theorem caughtUpBy_keeps :
    (s.caughtUpBy me sn table).cfg = s.cfg ∧ (s.caughtUpBy me sn table).mem.number = s.mem.number ∧
      ((s.caughtUpBy me sn table).order.step = .inStep ∨ (s.caughtUpBy me sn table).mem.listen = .stopped ∨
        (s.caughtUpBy me sn table).mem.listen = .running s.cfg.absenceTime) := by
  obtain ⟨cfg, number, _⟩ := foldl_applyHeld_keeps (s.cu.holdBack.filter fun h =>
    decide (1 ≤ (h.frame.seq - sn.base).toNat ∧ (h.frame.seq - sn.base).toNat ≤ 32768)) (s.replacedBy me sn table)
  exact ⟨cfg, number, foldl_applyHeld_listen _ _ rfl⟩

end Install

/-! ### The rows, as the re-validation table says them (R158) -/

theorem resyncGoes_iff (x : Slot) (found : Option Record) :
    resyncGoes x (found.map Record.standing) = true ↔
      x.state = .releasing ∧ found = none ∨ x.state = .cancelling ∧ ∀ r, found = some r → r.state = .held := by
  cases state : x.state <;> cases found with
  | none => simp [resyncGoes, state]
  | some r => cases claim : r.state <;> simp [resyncGoes, state, Record.standing, claim]

/-! ### Refused (R129) -/

theorem heardRefused {s : State} {sn : Snapshot} (differs : sn.digest ≠ s.mem.ownDigest) (x : StationNo) :
    let t := ((s.snapStored sn).attemptInstall sn).hearsSnapOf x
    t.mem.state = .refused ∧ t.order.step = .off ∧ t.table = Table.empty ∧ t.roster = Roster.empty ∧ t.cu = CatchUp.idle ∧
      t.port.counters = s.port.counters ∧ (∀ k : Tag, t.slots.slots[k] = Slot.empty) ∧
      ((∀ k : Tag, (s.slots.slots[k]).state = .free) →
        t.port.events = s.eventsWith [stateEvent .refused .config (some sn.base)]) := by
  rw [attemptInstall_refused differs]
  have out := (s.snapStored sn).putOut_frame .refused .config .config (some sn.base) (some sn.base) .lost
  have slot := (s.snapStored sn).putOut_slot .refused .config .config (some sn.base) (some sn.base) .lost
  have counters := (s.snapStored sn).putOut_counters .refused .config .config (some sn.base) (some sn.base) .lost
  have events := (s.snapStored sn).putOut_events .refused .config .config (some sn.base) (some sn.base) .lost
  generalize (s.snapStored sn).putOut .refused .config .config (some sn.base) (some sn.base) .lost = v at *
  have frame := v.hearsSnapOf_eq x
  have state := v.hearsSnapOf_state x
  generalize v.hearsSnapOf x = t at *
  refine ⟨state.trans (congrArg (·.mem.state) out), (congrArg (·.order.step) frame).trans (congrArg (·.order.step) out),
    (congrArg (·.table) frame).trans (congrArg (·.table) out), (congrArg (·.roster) frame).trans (congrArg (·.roster) out),
    (congrArg (·.cu) frame).trans (congrArg (·.cu) out), (congrArg (·.port.counters) frame).trans counters, fun k => ?_,
    fun free => ?_⟩
  · exact (congrArg (fun w : SlotUnit => w.slots[k]) (congrArg (·.slots) frame)).trans (slot k)
  · refine (congrArg (·.port.events) frame).trans (events.trans ?_)
    rw [show (s.snapStored sn).slotEnds .lost .config (some sn.base) = [] from s.slotEnds_of_free _ _ _ free]
    rfl

end Sys2Proof.Machine

/-! # Snapshots heard, and the frames held back: the obligation (R46, R126 to R135, R158) -/

namespace Sys2Proof.Machine

/-- Settles O41. -/
theorem snapshotHeaderIsStoredOrInstalled : Obligations.SnapshotHeaderIsStoredOrInstalled := by
  refine ⟨candidate_iff, fun s read levels f me hears number => ?_, fun s f inStep => ?_⟩
  · intro absence told receiving keeps ignored stored failed completed
    have ends (snap : f.body.kind = .snap) := exec_frameEnd_of_snap hears snap
    have kept := snapKept_of_catchUp number
    have isIgnored (snap : f.body.kind = .snap)
        (same : State.hearSnap { s with line := s.line.snapEnded } f = { s with line := s.line.snapEnded }) : ignored := by
      refine ⟨_, ends snap, ?_⟩
      rw [same]
      have frame := State.hearsSnapOf_eq { s with line := s.line.snapEnded } f.sender
      exact ⟨kept s.cu s.port f.sender, congrArg (·.cu) frame, congrArg (·.port) frame⟩
    have isStored (snap : f.body.kind = .snap) (sn : Snapshot)
        (same : State.hearSnap { s with line := s.line.snapEnded } f = s.snapStored sn) : stored sn := by
      refine ⟨_, ends snap, ?_⟩
      rw [same]
      have frame := State.hearsSnapOf_eq (s.snapStored sn) f.sender
      exact ⟨kept (s.snapStored sn).cu s.port f.sender, congrArg (·.port) frame, congrArg (·.cu) frame⟩
    have isFailed (snap : f.body.kind = .snap) {phase : Phase} (heard : phase ≠ .requesting) (snapshot : Option Snapshot)
        (wait : Timer) (why : Cause) (same : State.hearSnap { s with line := s.line.snapEnded } f = State.failAttempt
          { s with line := s.line.snapEnded, cu := { s.cu with snapshot := snapshot, phase := phase, wait := wait } } why) :
        failed why := by
      refine ⟨_, ends snap, ?_⟩
      rw [same]
      exact snapFails_of_phase number heard snapshot wait f.sender why
    have isCompleted (snap : f.body.kind = .snap) (sn : Snapshot)
        (same : State.hearSnap { s with line := s.line.snapEnded } f = (s.snapStored sn).attemptInstall sn) :
        completed sn := by
      refine ⟨fun differs => ?_, fun equal gap => ?_, fun equal whole none_ => ?_, fun table equal whole some_ => ?_⟩
      · refine ⟨_, ends snap, ?_⟩
        rw [same]
        exact heardRefused differs f.sender
      · exact isFailed snap (phase := .receiving) nofun (some sn) (.running s.cfg.absenceTime) .gap
          (same.trans (attemptInstall_gap equal gap))
      · refine isFailed snap (phase := .receiving) nofun (some sn) (.running s.cfg.absenceTime) .check (same.trans ?_)
        rw [attemptInstall_checked equal whole, none_]
        rfl
      · intro replaced after u idle listed
        refine ⟨membersOfHeader_getElem sn.members sn.lastTaken, ?_⟩
        have installs : State.hearSnap { s with line := s.line.snapEnded } f =
            (s.caughtUpBy me sn table).finishInstall sn.base := by
          rw [same, attemptInstall_checked equal whole, some_]
          exact install_snapStored number sn table
        obtain ⟨cfg, sameNumber, listen⟩ := caughtUpBy_keeps (s := s) (me := me) sn table
        have number' := sameNumber.trans number
        have counters (k : Fin 28) := installed_counters (u := s.caughtUpBy me sn table) (base := sn.base) (x := f.sender) k
        have here : (s.caughtUpBy me sn table) = u := rfl
        have next := ends snap
        rw [installs] at next
        rw [here] at next cfg number' listen counters
        clear_value u
        have frame := State.hearsSnapOf_eq (u.finishInstall sn.base) f.sender
        refine ⟨_, next, ?_, (counters 7).trans (if_pos rfl), fun k other => (counters k).trans (if_neg other), fun out => ?_,
          fun inStep stands => ?_, fun inStep member absent => ?_, fun inStep leaving absent => ?_⟩
        · exact (congrArg (·.cfg) frame).trans ((congrArg (·.cfg) (finishInstall_groupRest u sn.base)).trans cfg)
        · exact installed_of_out out (cfg ▸ listen.resolve_left out)
        · intro row entryGoes
          obtain ⟨order, table, roster, cu, state, joining, member, absence, slots, queue, events⟩ :=
            installed_of_present (base := sn.base) (x := f.sender) number' inStep stands
          refine ⟨order, table, roster, cu, state, joining, fun here => (member here).trans (by rw [cfg]), absence, slots,
            fun q => (queue q).trans (and_congr_right fun _ => or_congr_right (not_congr (resyncGoes_iff _ _))), events⟩
        · obtain ⟨order, table, roster, state, pending, cu, beat, slots, queue, events⟩ :=
            installed_of_member_absent (base := sn.base) (x := f.sender) number' inStep member (Bool.eq_false_iff.2 absent)
          exact ⟨order, table, roster, state, pending, cu, beat, slots, queue, events⟩
        · exact installed_of_leaving_absent (base := sn.base) (x := f.sender) number' inStep leaving (Bool.eq_false_iff.2 absent)
    refine ⟨fun target count d m u fp lt body => ?_, fun target index count p body => ?_⟩
    · have snap : f.body.kind = .snap := by simp [body, Body.kind]
      intro sn
      refine ⟨fun out => isIgnored snap (hearSnap_of_ignored (s := { s with line := s.line.snapEnded }) number body out),
        fun mine receives more => isStored snap sn ?_, fun mine receives whole => isCompleted snap sn ?_⟩
      all_goals
        have heard := hearSnap_of_header (s := { s with line := s.line.snapEnded }) number body mine receives
        rw [heard, storeSnapshot_eq]
      · refine if_neg fun last => more ?_
        exact BitVec.eq_of_toNat_eq last.symm
      · refine if_pos ?_
        rw [whole]
        rfl
    · have snap : f.body.kind = .snap := by simp [body, Body.kind]
      have record := hearSnap_of_record (s := { s with line := s.line.snapEnded }) number body
      refine ⟨fun out => isIgnored snap ?_, fun mine awaiting => ?_, fun sn receives kept_ mine => ?_⟩
      · rw [record]
        split
        · next mine => exact snapRecord_of_deaf (out.resolve_left fun other => other mine)
        · rfl
      · exact isFailed snap (phase := s.cu.phase) (by rw [awaiting]; exact nofun) s.cu.snapshot s.cu.wait .part
          (record.trans ((if_pos mine).trans (snapRecord_of_awaiting awaiting)))
      · rw [if_pos mine] at record
        have acts := record.trans (snapRecord_of_receiving (s := { s with line := s.line.snapEnded }) receives kept_)
        intro inTurn grown
        refine ⟨fun other => isIgnored snap (acts.trans (if_pos other)), fun same outOfTurn => ?_, fun same turn more => ?_,
          fun same turn whole => ?_⟩
        all_goals rw [if_neg fun other => other same] at acts
        · refine isFailed snap (phase := s.cu.phase) (by rw [receives]; exact nofun) s.cu.snapshot s.cu.wait .part ?_
          exact acts.trans (if_neg outOfTurn)
        · refine isStored snap grown (acts.trans ((if_pos turn).trans ?_))
          exact (storeSnapshot_eq s grown).trans (if_neg more)
        · refine isCompleted snap grown (acts.trans ((if_pos turn).trans ?_))
          exact (storeSnapshot_eq s grown).trans (if_pos whole)
  · intro held passed
    refine ⟨fun others reads calm _ beat request => liveAsHeld inStep reads calm ⟨beat, request⟩,
      fun remain kind => ⟨fun peer => ?_, fun own => ?_, fun stopped => ?_⟩,
      fun body alone peer => heldSyncreqDissolves body alone peer⟩
    · have passes := heldPasses kind false remain
      rw [twinOf_peer (decide_eq_false peer)] at passes
      exact passes
    · have passes := heldPasses kind false remain
      rw [twinOf_own (decide_eq_true own)] at passes
      exact passes
    · have passes := heldPasses kind true remain
      rw [show s.twinOf f true = [] by simp [State.twinOf, State.isForeign]] at passes
      have unpending : s.pres.ownFrameTaken s.cfg.beatInterval = { s.pres with beatPending := false } := by
        simp only [Presence.ownFrameTaken, stopped, Timer.isRunning, Bool.false_eq_true, if_false]
      refine passes.trans ?_
      change ({ s.passedBy f with pres := s.pres.ownFrameTaken s.cfg.beatInterval } : State) = _
      rw [unpending]
      rfl

end Sys2Proof.Machine
